-- ==== Sys2Proof/Word.lean ====
section
/-! DEFINITION. The word types of the EGTS-TLC core. All values are unsigned (00_scope.md R12); bit 0 is the least
significant bit (R11). -/

namespace Sys2Proof

/-- A byte: a cell of PB or FB, and every 8-bit register (10_state.md R17, R29). -/
abbrev Byte := BitVec 8

/-- A 16-bit wire field or register: FDL, PID, PRA, RCA, SFRCS, PLEN, CRC16R (10_state.md R17). -/
abbrev Half := BitVec 16

/-- A 17-bit count or offset into a buffer: FLEN, RS, RL, CUR (10_state.md R17, R22, R28). -/
abbrev Count := BitVec 17

/-- A command word, and a register as the host bus sees it (30_encoding.md R52, 20_memory.md R40). -/
abbrev Word := BitVec 32

/-- A byte address of the host bus aperture (20_memory.md R35). -/
abbrev BusAddr := BitVec 18

end Sys2Proof
end

