-- ==== Sys2Proof/Config.lean ====
section
/-! DEFINITION. What an implementation fixes: the parameters of 00_scope.md section 4 (rules R9, R10), the bus map of
20_memory.md R35, and the free value that stands for a buffer byte nothing has written (10_state.md R30). -/

namespace Sys2Proof

/-- The two byte memories of the block (10_state.md R29): the payload buffer PB and the frame buffer FB. -/
inductive Buf where
  | pb
  | fb
deriving DecidableEq, Repr

/-- The parameters of 00_scope.md section 4. Every rule takes them as an argument (R9, R31), so that a claim can name
them or quantify over them. -/
structure Config where
  crc8Poly : Byte
  crc8Init : Byte
  crc8Xorout : Byte
  crc8Reflect : Bool
  crc16Poly : Half
  crc16Init : Half
  crc16Xorout : Half
  crc16Reflect : Bool
  /-- The PRV values the decoder accepts, `SUPPORTED_PRV`. -/
  supportedPrv : List Byte
  /-- Header length without the routing block. -/
  hlBase : Nat
  /-- Header length with the routing block. -/
  hlRouted : Nat
  pbSize : Nat
  fbSize : Nat
deriving DecidableEq, Repr

/-- The values this hardware takes: the "value" column of 00_scope.md section 4. PRESUMED (by the spec itself, from
general knowledge): the eight CRC values. Unsafe: a claim that uses their numbers holds only for them
(notes/assumptions/5.md). -/
def Config.hardware : Config where
  crc8Poly := 0x31
  crc8Init := 0xFF
  crc8Xorout := 0x00
  crc8Reflect := false
  crc16Poly := 0x1021
  crc16Init := 0xFFFF
  crc16Xorout := 0x0000
  crc16Reflect := false
  supportedPrv := [1]
  hlBase := 11
  hlRouted := 16
  pbSize := 65535
  fbSize := 65553

/-- `REG_COUNT` of 00_scope.md section 4. -/
def Config.regCount : Nat := 49

/-- Bus address of register 0 (20_memory.md R35). -/
def Config.regBase : Nat := 0x00000

/-- Bus address of PB offset 0 (20_memory.md R35). -/
def Config.pbBase : Nat := 0x10000

/-- Bus address of FB offset 0 (20_memory.md R35). -/
def Config.fbBase : Nat := 0x20000

/-- One past the last address of the 18-bit aperture (20_memory.md R35). -/
def Config.busSize : Nat := 0x40000

/-- The size of a buffer under a configuration (10_state.md R29). -/
def Config.sizeOf (cfg : Config) : Buf → Nat
  | .pb => cfg.pbSize
  | .fb => cfg.fbSize

/-- FREE VALUE: what the byte of a buffer at an offset holds while nothing has written it since the reset numbered
`epoch` (10_state.md R30, 93_implementation_defined.md I17: "any value"). It has no body, so no proof can see it.
DESIGN CHOICE: the byte keeps one value until it is written or the block is reset (notes/assumptions/1.md). Unsafe
only where a claim compares two reads of one unwritten byte. -/
opaque Config.unwrittenByte (epoch : Nat) (buf : Buf) (offset : Nat) : Byte

end Sys2Proof
end

