-- ==== Sys2Proof/Syntax.lean ====
section
/-! DEFINITION. The syntax of the machine: the twelve commands of TLC-CMD version 1 (30_encoding.md R53), the 49
registers by name (10_state.md R17), and the host's bus accesses, of which a host script is a list
(30_encoding.md R64, 20_memory.md R35). -/

namespace Sys2Proof

/-- The twelve commands of 30_encoding.md R53. A command word holds no operand (R52), so no constructor has an
argument: the operands are in named registers and buffers (10_state.md R32). -/
inductive Instr where
  /-- No operation; clears the error report (46_system.md R103). -/
  | nop
  /-- CRC-8 of a range of FB (43_crc8.md R87). -/
  | crc8
  /-- CRC-16 of a range of FB (44_crc16.md R92). -/
  | crc16
  /-- Generic bit-field pack (42_bitfield.md R79). -/
  | bfpack
  /-- Generic bit-field unpack (42_bitfield.md R80). -/
  | bfunpack
  /-- Pack the header flag byte (42_bitfield.md R81). -/
  | flgpack
  /-- Unpack the header flag byte (42_bitfield.md R82). -/
  | flgunpack
  /-- Header encode (41_header_codec.md R69). -/
  | hdrenc
  /-- Header decode (41_header_codec.md R71). -/
  | hdrdec
  /-- Packet encode (45_packet_codec.md R95). -/
  | pktenc
  /-- Packet decode (45_packet_codec.md R97). -/
  | pktdec
  /-- Every register to its reset value (46_system.md R104). -/
  | clr
deriving DecidableEq, Repr

/-- The registers of 10_state.md R17, in the order of their numbers 0 to 48. -/
inductive Reg where
  | prv | skid | prf | rte | ena | cmp | pr | hl | he | fdl
  | pid | pt | pra | rca | ttl | hcs | sfrcs | flags | plen | flen
  | rs | rl | crc8r | crc16r | bfn | bfbyte | bfv0 | bfv1 | bfv2 | bfv3
  | bfv4 | bfv5 | bfv6 | bfv7 | bfw0 | bfw1 | bfw2 | bfw3 | bfw4 | bfw5
  | bfw6 | bfw7 | cmd | status | errcode | errfield | errofs | phase | cur
deriving DecidableEq, Repr

/-- The width of one host access. Only words reach registers and only bytes reach buffers (20_memory.md R42). -/
inductive AccessSize where
  | byte
  | half
  | word
deriving DecidableEq, Repr

/-- What the outside world can do to the block: one bus access of the host (30_encoding.md R64, 20_memory.md R35), or
one assertion of the reset input (70_reset_and_hazards.md R129). A byte or halfword write uses the low bits of
`data`. -/
inductive HostAccess where
  | read (size : AccessSize) (addr : BusAddr)
  | write (size : AccessSize) (addr : BusAddr) (data : Word)
  | reset
deriving DecidableEq, Repr

end Sys2Proof
end

