-- ==== Sys2Proof/Machine/BusMap.lean ====
section
/-! DEFINITION. The host's bus map (20_memory.md R35): the windows of the aperture, which accesses are part of the
interface (R42), and which register or buffer byte an access reaches. -/

namespace Sys2Proof.Machine

/-- The bytes of the register window (20_memory.md R35). -/
def inRegWindow (a : Nat) : Bool :=
  decide (Config.regBase ≤ a ∧ a < Config.regBase + 4 * Config.regCount)

/-- The bytes of PB's window (20_memory.md R35). -/
def inPbWindow (a : Nat) : Bool :=
  decide (Config.pbBase ≤ a ∧ a < Config.pbBase + Config.hardware.pbSize)

/-- The bytes of FB's window (20_memory.md R35). -/
def inFbWindow (a : Nat) : Bool :=
  decide (Config.fbBase ≤ a ∧ a < Config.fbBase + Config.hardware.fbSize)

/-- The reserved bytes of the aperture (20_memory.md R35, 93_implementation_defined.md I20). -/
def isReserved (a : Nat) : Bool :=
  decide (a < Config.busSize) && !inRegWindow a && !inPbWindow a && !inFbWindow a

/-- The number of bytes an access covers (20_memory.md R42). -/
def accessBytes : AccessSize → Nat
  | .byte => 1
  | .half => 2
  | .word => 4

/-- 20_memory.md R42: a register is accessed only as an aligned word, PB and FB only as single bytes. Reserved
addresses answer an access of any size that covers reserved bytes alone, a word only when aligned (R35; DEDUCED,
notes/assumptions/6.md). -/
def accessWellFormed : AccessSize → Nat → Bool
  | .byte, a => inPbWindow a || inFbWindow a || isReserved a
  | .half, a => isReserved a && isReserved (a + 1)
  | .word, a =>
    decide (a % 4 = 0) &&
      (inRegWindow a || (isReserved a && isReserved (a + 1) && isReserved (a + 2) && isReserved (a + 3)))

/-- The registers in the order of their numbers (10_state.md R17). -/
def allRegs : List Reg :=
  [
    .prv, .skid, .prf, .rte, .ena, .cmp, .pr, .hl, .he, .fdl,
    .pid, .pt, .pra, .rca, .ttl, .hcs, .sfrcs, .flags, .plen, .flen,
    .rs, .rl, .crc8r, .crc16r, .bfn, .bfbyte, .bfv0, .bfv1, .bfv2, .bfv3,
    .bfv4, .bfv5, .bfv6, .bfv7, .bfw0, .bfw1, .bfw2, .bfw3, .bfw4, .bfw5,
    .bfw6, .bfw7, .cmd, .status, .errcode, .errfield, .errofs, .phase, .cur]

/-- The register of a number (10_state.md R17). -/
def regOfNum (n : Nat) : Option Reg := allRegs[n]?

/-- What an access of the aperture reaches (20_memory.md R35). -/
inductive Target where
  | reg (r : Reg)
  | byte (buf : Buf) (offset : Nat)
  | reserved
deriving DecidableEq, Repr

/-- What the byte at an address belongs to, the register window apart (20_memory.md R35). -/
def bufferTarget (a : Nat) : Target :=
  if Config.pbBase ≤ a ∧ a < Config.pbBase + Config.hardware.pbSize then .byte .pb (a - Config.pbBase)
  else if Config.fbBase ≤ a ∧ a < Config.fbBase + Config.hardware.fbSize then .byte .fb (a - Config.fbBase)
  else .reserved

/-- What an access reaches; nothing for an access outside the interface (20_memory.md R42). -/
def busTarget (size : AccessSize) (a : Nat) : Option Target :=
  if accessWellFormed size a then
    match size with
    | .byte => some (bufferTarget a)
    | .half => some .reserved
    | .word =>
      match regOfNum (a / 4) with
      | some r => some (.reg r)
      | none => some .reserved
  else none

end Sys2Proof.Machine
end

