-- ==== Sys2Proof/Machine/State.lean ====
section
/-! DEFINITION. The state of the machine: the 49 registers of 10_state.md R17 in four groups, the buffers PB and FB
(R29), and three fields of the model's own for the outside world. Plain data throughout. -/

namespace Sys2Proof.Machine

/-- Why the machine stops with a fault. The type is empty: "the block has no fault state, no stuck state and no fault
bit that survives the next command" (60_exceptions.md R106); its errors are result values (R105, type `Err`). DEDUCED
(notes/assumptions/10.md), safe. -/
inductive Fault where
deriving DecidableEq, Repr

/-- Why a step is refused. -/
inductive Refusal where
  /-- Raised by `exec` for an instruction without a meaning; no arm of this model raises it. Safe. -/
  | notModelled (mnemonic : String)
  /-- Raised by `step` for a host access of the wrong size or alignment, which 20_memory.md R42 puts outside the
  interface and gives no step (93_implementation_defined.md I19). Safe (notes/assumptions/6.md). -/
  | accessOutsideInterface (access : HostAccess)
deriving DecidableEq, Repr

/-- A byte memory: the bytes written since reset as (offset, byte) pairs, offsets strictly rising. An unlisted offset
holds no defined value (10_state.md R30). -/
abbrev Memory := List Host.Cell

/-- The canonical form: offsets strictly rising. An unlisted offset reads as no defined value, which no entry equals,
so equal memories are equal lists. -/
abbrev Memory.wf (m : Memory) : Prop := (m.map Prod.fst).Pairwise (· < ·)

/-- Registers 0 to 17: the field registers (10_state.md R18 to R20) and FLAGS (R21). -/
structure HeaderRegs where
  prv : Byte
  skid : Byte
  /-- 8 bits wide although the field has 2, so that an over-wide operand reaches the command (10_state.md R19). -/
  prf : Byte
  /-- A 1-bit field in 8 bits (R19). -/
  rte : Byte
  /-- A 2-bit field in 8 bits (R19). -/
  ena : Byte
  /-- A 1-bit field in 8 bits (R19). -/
  cmp : Byte
  /-- A 2-bit field in 8 bits (R19). -/
  pr : Byte
  hl : Byte
  he : Byte
  fdl : Half
  pid : Half
  pt : Byte
  pra : Half
  rca : Half
  ttl : Byte
  hcs : Byte
  sfrcs : Half
  flags : Byte
deriving DecidableEq, Repr

/-- Registers 18 to 23: lengths, the CRC range and the CRC results (10_state.md R17, R22). -/
structure RangeRegs where
  plen : Half
  flen : Count
  rs : Count
  rl : Count
  crc8r : Byte
  crc16r : Half
deriving DecidableEq, Repr

/-- Registers 24 to 41: the bit-field operand file (10_state.md R23). -/
structure BitFieldRegs where
  bfn : BitVec 4
  bfbyte : Byte
  bfv0 : Byte
  bfv1 : Byte
  bfv2 : Byte
  bfv3 : Byte
  bfv4 : Byte
  bfv5 : Byte
  bfv6 : Byte
  bfv7 : Byte
  bfw0 : BitVec 4
  bfw1 : BitVec 4
  bfw2 : BitVec 4
  bfw3 : BitVec 4
  bfw4 : BitVec 4
  bfw5 : BitVec 4
  bfw6 : BitVec 4
  bfw7 : BitVec 4
deriving DecidableEq, Repr

/-- Registers 42 to 48: command, status, error report and decode cursor (10_state.md R24 to R28). -/
structure ControlRegs where
  cmd : Word
  status : BitVec 3
  errcode : Byte
  errfield : Byte
  errofs : Word
  phase : BitVec 3
  cur : Count
deriving DecidableEq, Repr

/-- The whole machine. The last three fields are the model's own: DESIGN CHOICE (notes/assumptions/2.md, 3.md,
4.md). -/
structure State where
  hdr : HeaderRegs
  rng : RangeRegs
  bf : BitFieldRegs
  ctl : ControlRegs
  /-- PB, the payload buffer (10_state.md R29). -/
  pb : Memory
  /-- FB, the frame buffer (10_state.md R29). -/
  fb : Memory
  /-- How often the reset input has been asserted: it selects the unspecified buffer contents. -/
  epoch : Nat
  /-- The host accesses not yet made, oldest first. -/
  pending : List HostAccess
  /-- What the last host access answered: the word a read returned, nothing for a write. -/
  reply : Option Word
deriving DecidableEq, Repr

/-- Registers 0 to 17 after reset (10_state.md R33). -/
def HeaderRegs.reset : HeaderRegs where
  prv := 0
  skid := 0
  prf := 0
  rte := 0
  ena := 0
  cmp := 0
  pr := 0
  hl := 0
  he := 0
  fdl := 0
  pid := 0
  pt := 0
  pra := 0
  rca := 0
  ttl := 0
  hcs := 0
  sfrcs := 0
  flags := 0

/-- Registers 18 to 23 after reset (10_state.md R33). -/
def RangeRegs.reset : RangeRegs where
  plen := 0
  flen := 0
  rs := 0
  rl := 0
  crc8r := 0
  crc16r := 0

/-- Registers 24 to 41 after reset (10_state.md R33). -/
def BitFieldRegs.reset : BitFieldRegs where
  bfn := 0
  bfbyte := 0
  bfv0 := 0
  bfv1 := 0
  bfv2 := 0
  bfv3 := 0
  bfv4 := 0
  bfv5 := 0
  bfv6 := 0
  bfv7 := 0
  bfw0 := 0
  bfw1 := 0
  bfw2 := 0
  bfw3 := 0
  bfw4 := 0
  bfw5 := 0
  bfw6 := 0
  bfw7 := 0

/-- Registers 42 to 48 after reset: not busy, not done, no error, PHASE Start (10_state.md R33). -/
def ControlRegs.reset : ControlRegs where
  cmd := 0
  status := 0
  errcode := 0
  errfield := 0
  errofs := 0
  phase := 0
  cur := 0

/-- The machine right after reset (10_state.md R33, 70_reset_and_hazards.md R129): every register 0, nothing written
in PB and FB. The host has made no access and is not yet going to make one. -/
def State.reset : State where
  hdr := .reset
  rng := .reset
  bf := .reset
  ctl := .reset
  pb := []
  fb := []
  epoch := 0
  pending := []
  reply := none

end Sys2Proof.Machine
end

