-- ==== Sys2Proof/Machine/Errors.lean ====
section
/-! DEFINITION. Errors as result values (60_exceptions.md R105 to R108) and the states of the decode state machine
(10_state.md R27). -/

namespace Sys2Proof.Machine

/-- The error names of 60_exceptions.md R107. -/
inductive ErrCode where
  | invalidField
  | truncated
  | checksumMismatch
  | payloadChecksumMismatch
  | unsupportedVersion
  | bitFieldOverflow
  | bitFieldBadWidths
  | illegalCommand
  | badRange
deriving DecidableEq, Repr

/-- `raise E(field, ofs)` (00_scope.md R13, 60_exceptions.md R105): the error's name and what ERRFIELD and ERROFS
record. -/
structure Err where
  code : ErrCode
  field : Nat
  ofs : Nat
deriving DecidableEq, Repr

/-- The states of the decode state machine (10_state.md R27). -/
inductive Phase where
  | start
  | headerParsed
  | payloadRead
  | checksumValidated
  | checksumFailed
deriving DecidableEq, Repr

/-- The value of ERRCODE for an error (60_exceptions.md R107); 0 is no error. -/
def ErrCode.num : ErrCode → Byte
  | .invalidField => 1
  | .truncated => 2
  | .checksumMismatch => 3
  | .payloadChecksumMismatch => 4
  | .unsupportedVersion => 5
  | .bitFieldOverflow => 6
  | .bitFieldBadWidths => 7
  | .illegalCommand => 8
  | .badRange => 9

/-- The value of PHASE for a state of the decode state machine (10_state.md R27). -/
def Phase.num : Phase → BitVec 3
  | .start => 0
  | .headerParsed => 1
  | .payloadRead => 2
  | .checksumValidated => 3
  | .checksumFailed => 4

/-- The number of a register (10_state.md R17), which is also its ERRFIELD value (60_exceptions.md R108). -/
def regNum : Reg → Nat
  | .prv => 0
  | .skid => 1
  | .prf => 2
  | .rte => 3
  | .ena => 4
  | .cmp => 5
  | .pr => 6
  | .hl => 7
  | .he => 8
  | .fdl => 9
  | .pid => 10
  | .pt => 11
  | .pra => 12
  | .rca => 13
  | .ttl => 14
  | .hcs => 15
  | .sfrcs => 16
  | .flags => 17
  | .plen => 18
  | .flen => 19
  | .rs => 20
  | .rl => 21
  | .crc8r => 22
  | .crc16r => 23
  | .bfn => 24
  | .bfbyte => 25
  | .bfv0 => 26
  | .bfv1 => 27
  | .bfv2 => 28
  | .bfv3 => 29
  | .bfv4 => 30
  | .bfv5 => 31
  | .bfv6 => 32
  | .bfv7 => 33
  | .bfw0 => 34
  | .bfw1 => 35
  | .bfw2 => 36
  | .bfw3 => 37
  | .bfw4 => 38
  | .bfw5 => 39
  | .bfw6 => 40
  | .bfw7 => 41
  | .cmd => 42
  | .status => 43
  | .errcode => 44
  | .errfield => 45
  | .errofs => 46
  | .phase => 47
  | .cur => 48

/-- ERRFIELD of the header span as a region (60_exceptions.md R108). -/
def headerRegion : Nat := 0x80

/-- ERRFIELD of the payload SFRD as a region (60_exceptions.md R108). -/
def payloadRegion : Nat := 0x81

end Sys2Proof.Machine
end

