-- ==== Sys2Proof/Machine/Flags.lean ====
section
/-! DEFINITION. STATUS, the block's only status flags (10_state.md R25). There are no arithmetic condition codes. -/

namespace Sys2Proof.Machine

/-- STATUS from its three bits: bit 0 BUSY, bit 1 DONE, bit 2 ERR (10_state.md R25). -/
def statusWord (busy done err : Bool) : BitVec 3 :=
  BitVec.ofNat 3 (busy.toNat + 2 * done.toNat + 4 * err.toNat)

/-- STATUS while a command runs: BUSY = 1, DONE = 0, ERR = 0 (30_encoding.md R54). -/
def statusBusy : BitVec 3 := statusWord true false false

/-- STATUS at completion: BUSY = 0, DONE = 1, ERR = (ERRCODE != 0) (30_encoding.md R54). -/
def statusAfter (errcode : Byte) : BitVec 3 := statusWord false true (errcode != 0)

/-- STATUS.BUSY. -/
def State.busy (s : State) : Bool := s.ctl.status.getLsbD 0

/-- STATUS.DONE. -/
def State.done (s : State) : Bool := s.ctl.status.getLsbD 1

/-- STATUS.ERR. -/
def State.err (s : State) : Bool := s.ctl.status.getLsbD 2

end Sys2Proof.Machine
end

