-- ==== Sys2Proof/Machine/Ops.lean ====
section
/-! DEFINITION. The named operations over registers and buffers, the completion of a command, and `raise`, which is
what taking an exception is on this machine (60_exceptions.md R105, R120). -/

namespace Sys2Proof.Machine

/-! ## Narrowing -/

/-- `trunc_8` (00_scope.md R12). -/
def byteOf (v : Nat) : Byte := BitVec.ofNat 8 v

/-- Bits 7:0 of a 16-bit field: the byte at the lower offset (20_memory.md R37, 30_encoding.md R60). -/
def lowByte (v : Half) : Byte := BitVec.ofNat 8 v.toNat

/-- Bits 15:8 of a 16-bit field: the byte at the higher offset (20_memory.md R37, 30_encoding.md R60). -/
def highByte (v : Half) : Byte := BitVec.ofNat 8 (v.toNat / 256)

/-- A 16-bit field from its two bytes, the lower offset first (30_encoding.md R60). -/
def halfOf (lo hi : Byte) : Half := BitVec.ofNat 16 (lo.toNat + 256 * hi.toNat)

/-! ## Buffer bytes -/

/-- The byte written at an offset, if one was. -/
def Memory.read? : Memory → Nat → Option Byte
  | [], _ => none
  | (k, v) :: m, a => if k = a then some v else Memory.read? m a

/-- Writes one byte, keeping offsets strictly rising. -/
def Memory.write : Memory → Nat → Byte → Memory
  | [], a, b => [(a, b)]
  | (k, v) :: m, a, b =>
    if a < k then (a, b) :: (k, v) :: m
    else if a = k then (a, b) :: m
    else (k, v) :: Memory.write m a b

/-- `for i: MemWrite(B, a + i, 1, bs[i])`, in ascending offset order (00_scope.md R13, 20_memory.md R43). -/
def Memory.writeBytes : Memory → Nat → List Byte → Memory
  | m, _, [] => m
  | m, a, b :: bs => Memory.writeBytes (m.write a b) (a + 1) bs

/-- The bytes written in a buffer. -/
def State.memory (s : State) : Buf → Memory
  | .pb => s.pb
  | .fb => s.fb

/-- `B[a]`: the byte of a buffer at an offset; where nothing has written it, a free value (10_state.md R30). -/
def State.byteAt (s : State) (buf : Buf) (a : Nat) : Byte :=
  ((s.memory buf).read? a).getD (Config.unwrittenByte s.epoch buf a)

/-- `B[a .. a+n)` (00_scope.md R13). -/
def State.slice (s : State) (buf : Buf) (a : Nat) : Nat → List Byte
  | 0 => []
  | n + 1 => s.byteAt buf a :: State.slice s buf (a + 1) n

/-- `MemWrite` of consecutive bytes of a buffer (00_scope.md R13). -/
def State.store (s : State) : Buf → Nat → List Byte → State
  | .pb, a, bs => { s with pb := s.pb.writeBytes a bs }
  | .fb, a, bs => { s with fb := s.fb.writeBytes a bs }

/-! ## Registers by name, as the host bus sees them -/

/-- The stored width of a register (10_state.md R17). -/
def regWidth : Reg → Nat
  | .prv => 8
  | .skid => 8
  | .prf => 8
  | .rte => 8
  | .ena => 8
  | .cmp => 8
  | .pr => 8
  | .hl => 8
  | .he => 8
  | .fdl => 16
  | .pid => 16
  | .pt => 8
  | .pra => 16
  | .rca => 16
  | .ttl => 8
  | .hcs => 8
  | .sfrcs => 16
  | .flags => 8
  | .plen => 16
  | .flen => 17
  | .rs => 17
  | .rl => 17
  | .crc8r => 8
  | .crc16r => 16
  | .bfn => 4
  | .bfbyte => 8
  | .bfv0 => 8
  | .bfv1 => 8
  | .bfv2 => 8
  | .bfv3 => 8
  | .bfv4 => 8
  | .bfv5 => 8
  | .bfv6 => 8
  | .bfv7 => 8
  | .bfw0 => 4
  | .bfw1 => 4
  | .bfw2 => 4
  | .bfw3 => 4
  | .bfw4 => 4
  | .bfw5 => 4
  | .bfw6 => 4
  | .bfw7 => 4
  | .cmd => 32
  | .status => 3
  | .errcode => 8
  | .errfield => 8
  | .errofs => 32
  | .phase => 3
  | .cur => 17

/-- `x[NAME]`, zero-extended to 32 bits: what a host read returns (10_state.md R17). -/
def State.reg (s : State) : Reg → Word
  | .prv => s.hdr.prv.setWidth 32
  | .skid => s.hdr.skid.setWidth 32
  | .prf => s.hdr.prf.setWidth 32
  | .rte => s.hdr.rte.setWidth 32
  | .ena => s.hdr.ena.setWidth 32
  | .cmp => s.hdr.cmp.setWidth 32
  | .pr => s.hdr.pr.setWidth 32
  | .hl => s.hdr.hl.setWidth 32
  | .he => s.hdr.he.setWidth 32
  | .fdl => s.hdr.fdl.setWidth 32
  | .pid => s.hdr.pid.setWidth 32
  | .pt => s.hdr.pt.setWidth 32
  | .pra => s.hdr.pra.setWidth 32
  | .rca => s.hdr.rca.setWidth 32
  | .ttl => s.hdr.ttl.setWidth 32
  | .hcs => s.hdr.hcs.setWidth 32
  | .sfrcs => s.hdr.sfrcs.setWidth 32
  | .flags => s.hdr.flags.setWidth 32
  | .plen => s.rng.plen.setWidth 32
  | .flen => s.rng.flen.setWidth 32
  | .rs => s.rng.rs.setWidth 32
  | .rl => s.rng.rl.setWidth 32
  | .crc8r => s.rng.crc8r.setWidth 32
  | .crc16r => s.rng.crc16r.setWidth 32
  | .bfn => s.bf.bfn.setWidth 32
  | .bfbyte => s.bf.bfbyte.setWidth 32
  | .bfv0 => s.bf.bfv0.setWidth 32
  | .bfv1 => s.bf.bfv1.setWidth 32
  | .bfv2 => s.bf.bfv2.setWidth 32
  | .bfv3 => s.bf.bfv3.setWidth 32
  | .bfv4 => s.bf.bfv4.setWidth 32
  | .bfv5 => s.bf.bfv5.setWidth 32
  | .bfv6 => s.bf.bfv6.setWidth 32
  | .bfv7 => s.bf.bfv7.setWidth 32
  | .bfw0 => s.bf.bfw0.setWidth 32
  | .bfw1 => s.bf.bfw1.setWidth 32
  | .bfw2 => s.bf.bfw2.setWidth 32
  | .bfw3 => s.bf.bfw3.setWidth 32
  | .bfw4 => s.bf.bfw4.setWidth 32
  | .bfw5 => s.bf.bfw5.setWidth 32
  | .bfw6 => s.bf.bfw6.setWidth 32
  | .bfw7 => s.bf.bfw7.setWidth 32
  | .cmd => s.ctl.cmd
  | .status => s.ctl.status.setWidth 32
  | .errcode => s.ctl.errcode.setWidth 32
  | .errfield => s.ctl.errfield.setWidth 32
  | .errofs => s.ctl.errofs
  | .phase => s.ctl.phase.setWidth 32
  | .cur => s.ctl.cur.setWidth 32

/-- A host write of a word to a register: a RW register keeps the low bits, a RO register ignores the write
(10_state.md R17). For CMD this is step (1) of 30_encoding.md R54 only. -/
def State.writeReg (s : State) (r : Reg) (w : Word) : State :=
  match r with
  | .prv => { s with hdr := { s.hdr with prv := w.setWidth 8 } }
  | .skid => { s with hdr := { s.hdr with skid := w.setWidth 8 } }
  | .prf => { s with hdr := { s.hdr with prf := w.setWidth 8 } }
  | .rte => { s with hdr := { s.hdr with rte := w.setWidth 8 } }
  | .ena => { s with hdr := { s.hdr with ena := w.setWidth 8 } }
  | .cmp => { s with hdr := { s.hdr with cmp := w.setWidth 8 } }
  | .pr => { s with hdr := { s.hdr with pr := w.setWidth 8 } }
  | .hl => { s with hdr := { s.hdr with hl := w.setWidth 8 } }
  | .he => { s with hdr := { s.hdr with he := w.setWidth 8 } }
  | .fdl => { s with hdr := { s.hdr with fdl := w.setWidth 16 } }
  | .pid => { s with hdr := { s.hdr with pid := w.setWidth 16 } }
  | .pt => { s with hdr := { s.hdr with pt := w.setWidth 8 } }
  | .pra => { s with hdr := { s.hdr with pra := w.setWidth 16 } }
  | .rca => { s with hdr := { s.hdr with rca := w.setWidth 16 } }
  | .ttl => { s with hdr := { s.hdr with ttl := w.setWidth 8 } }
  | .hcs => { s with hdr := { s.hdr with hcs := w.setWidth 8 } }
  | .sfrcs => { s with hdr := { s.hdr with sfrcs := w.setWidth 16 } }
  | .flags => { s with hdr := { s.hdr with flags := w.setWidth 8 } }
  | .plen => { s with rng := { s.rng with plen := w.setWidth 16 } }
  | .flen => { s with rng := { s.rng with flen := w.setWidth 17 } }
  | .rs => { s with rng := { s.rng with rs := w.setWidth 17 } }
  | .rl => { s with rng := { s.rng with rl := w.setWidth 17 } }
  | .crc8r => s
  | .crc16r => s
  | .bfn => { s with bf := { s.bf with bfn := w.setWidth 4 } }
  | .bfbyte => { s with bf := { s.bf with bfbyte := w.setWidth 8 } }
  | .bfv0 => { s with bf := { s.bf with bfv0 := w.setWidth 8 } }
  | .bfv1 => { s with bf := { s.bf with bfv1 := w.setWidth 8 } }
  | .bfv2 => { s with bf := { s.bf with bfv2 := w.setWidth 8 } }
  | .bfv3 => { s with bf := { s.bf with bfv3 := w.setWidth 8 } }
  | .bfv4 => { s with bf := { s.bf with bfv4 := w.setWidth 8 } }
  | .bfv5 => { s with bf := { s.bf with bfv5 := w.setWidth 8 } }
  | .bfv6 => { s with bf := { s.bf with bfv6 := w.setWidth 8 } }
  | .bfv7 => { s with bf := { s.bf with bfv7 := w.setWidth 8 } }
  | .bfw0 => { s with bf := { s.bf with bfw0 := w.setWidth 4 } }
  | .bfw1 => { s with bf := { s.bf with bfw1 := w.setWidth 4 } }
  | .bfw2 => { s with bf := { s.bf with bfw2 := w.setWidth 4 } }
  | .bfw3 => { s with bf := { s.bf with bfw3 := w.setWidth 4 } }
  | .bfw4 => { s with bf := { s.bf with bfw4 := w.setWidth 4 } }
  | .bfw5 => { s with bf := { s.bf with bfw5 := w.setWidth 4 } }
  | .bfw6 => { s with bf := { s.bf with bfw6 := w.setWidth 4 } }
  | .bfw7 => { s with bf := { s.bf with bfw7 := w.setWidth 4 } }
  | .cmd => { s with ctl := { s.ctl with cmd := w } }
  | .status => s
  | .errcode => s
  | .errfield => s
  | .errofs => s
  | .phase => s
  | .cur => s

/-! ## Register writes of the commands -/

/-- `x[CRC8R] <- v` (43_crc8.md R87). -/
def State.setCrc8r (s : State) (v : Byte) : State := { s with rng := { s.rng with crc8r := v } }

/-- `x[CRC16R] <- v` (44_crc16.md R92). -/
def State.setCrc16r (s : State) (v : Half) : State := { s with rng := { s.rng with crc16r := v } }

/-- `x[FLEN] <- n` (41_header_codec.md R69). -/
def State.setFlen (s : State) (n : Nat) : State := { s with rng := { s.rng with flen := BitVec.ofNat 17 n } }

/-- `x[PLEN] <- n` (45_packet_codec.md R97). -/
def State.setPlen (s : State) (n : Nat) : State := { s with rng := { s.rng with plen := BitVec.ofNat 16 n } }

/-- `x[FDL] <- n` (45_packet_codec.md R95). -/
def State.setFdl (s : State) (n : Nat) : State := { s with hdr := { s.hdr with fdl := BitVec.ofNat 16 n } }

/-- `x[HCS] <- v` (41_header_codec.md R69). -/
def State.setHcs (s : State) (v : Byte) : State := { s with hdr := { s.hdr with hcs := v } }

/-- `x[SFRCS] <- v` (45_packet_codec.md R95). -/
def State.setSfrcs (s : State) (v : Half) : State := { s with hdr := { s.hdr with sfrcs := v } }

/-- `x[FLAGS] <- v` (10_state.md R21). -/
def State.setFlags (s : State) (v : Byte) : State := { s with hdr := { s.hdr with flags := v } }

/-- `x[BFBYTE] <- v` (42_bitfield.md R79). -/
def State.setBfbyte (s : State) (v : Byte) : State := { s with bf := { s.bf with bfbyte := v } }

/-- `x[BFVi] <- vs[i]`, and 0 at and above the length of `vs` (42_bitfield.md R80). -/
def State.setBfValues (s : State) (vs : List Nat) : State :=
  { s with
    bf := { s.bf with
      bfv0 := byteOf (vs.getD 0 0),
      bfv1 := byteOf (vs.getD 1 0),
      bfv2 := byteOf (vs.getD 2 0),
      bfv3 := byteOf (vs.getD 3 0),
      bfv4 := byteOf (vs.getD 4 0),
      bfv5 := byteOf (vs.getD 5 0),
      bfv6 := byteOf (vs.getD 6 0),
      bfv7 := byteOf (vs.getD 7 0) } }

/-- `x[PRF] <- .. ; x[RTE] <- .. ; x[ENA] <- .. ; x[CMP] <- .. ; x[PR] <- ..` (42_bitfield.md R82). -/
def State.setFlagFields (s : State) (prf rte ena cmp pr : Byte) : State :=
  { s with hdr := { s.hdr with prf := prf, rte := rte, ena := ena, cmp := cmp, pr := pr } }

/-- `x[PHASE] <- p ; pc <- n` (10_state.md R27, R28). -/
def State.setPhase (s : State) (p : Phase) (n : Nat) : State :=
  { s with ctl := { s.ctl with phase := p.num, cur := BitVec.ofNat 17 n } }

/-- Every register to its reset value; PB and FB are not touched (46_system.md R104). -/
def State.clearRegisters (s : State) : State :=
  { s with hdr := .reset, rng := .reset, bf := .reset, ctl := .reset }

/-! ## Dispatch, completion, `raise` (30_encoding.md R54, 60_exceptions.md R105) -/

/-- Steps (1) and (2) of 30_encoding.md R54: CMD takes the word, STATUS becomes BUSY. -/
def State.startCommand (s : State) (w : Word) : State :=
  { s with ctl := { s.ctl with cmd := w, status := statusBusy } }

/-- Normal completion, step (4) of 30_encoding.md R54: the error report is 0, 0, 0. This is also all there is of a
return from an exception: the next completion overwrites the report (60_exceptions.md R121). -/
def State.finish (s : State) : State :=
  { s with ctl := { s.ctl with errcode := 0, errfield := 0, errofs := 0, status := statusAfter 0 } }

/-- `raise E(field, ofs)` (60_exceptions.md R105): ERRCODE, ERRFIELD, ERROFS and STATUS record the error, everything
already written stays, control goes nowhere. -/
def State.raise (s : State) (e : Err) : State :=
  { s with
    ctl := { s.ctl with
      errcode := e.code.num
      errfield := byteOf e.field
      errofs := BitVec.ofNat 32 e.ofs
      status := statusAfter e.code.num } }

/-- The end of a command: normal completion, or the one `raise` it reached (60_exceptions.md R106). -/
def State.complete (s : State) : Option Err → State
  | none => s.finish
  | some e => s.raise e

/-- One command as one atomic step (30_encoding.md R54, 10_state.md R16): CMD takes the word, the body runs and says
what it has written and which error it raised, if any, and the command completes. -/
def runCommand (w : Word) (body : State → State × Option Err) (s : State) :
    Host.Outcome State Fault Refusal :=
  .next ((body (s.startCommand w)).1.complete (body (s.startCommand w)).2)

/-- A CMD write whose word is no command (30_encoding.md R55, 60_exceptions.md R116). -/
def illegalCommand (w : Word) (s : State) : Host.Outcome State Fault Refusal :=
  runCommand w (fun t => (t, some ⟨.illegalCommand, regNum .cmd, w.toNat⟩)) s

/-! ## The host's side -/

/-- The reset input (70_reset_and_hazards.md R129): every register to its reset value, PB and FB unspecified. The
accesses the host is still going to make are the host's and stay. -/
def State.assertReset (s : State) : State :=
  { State.reset with epoch := s.epoch + 1, pending := s.pending }

/-- What a host access leaves on the bus: the word read, or nothing. -/
def State.answer (s : State) (v : Option Word) : State := { s with reply := v }

/-- The rest of the host's script. -/
def State.withPending (s : State) (l : List HostAccess) : State := { s with pending := l }

end Sys2Proof.Machine
end

