-- ==== Sys2Proof/Machine/Operands.lean ====
section
/-! DEFINITION. The operands of the commands: they are all in named registers and buffers (30_encoding.md R52,
10_state.md R32). -/

namespace Sys2Proof.Machine

/-- A header value (41_header_codec.md R66): registers 0 to 14. PRA, RCA and TTL are part of it only when RTE = 1. -/
structure Header where
  prv : Byte
  skid : Byte
  prf : Byte
  rte : Byte
  ena : Byte
  cmp : Byte
  pr : Byte
  hl : Byte
  he : Byte
  fdl : Half
  pid : Half
  pt : Byte
  pra : Half
  rca : Half
  ttl : Byte
deriving DecidableEq, Repr

/-- The header value held in registers 0 to 14 (41_header_codec.md R66). -/
def State.header (s : State) : Header where
  prv := s.hdr.prv
  skid := s.hdr.skid
  prf := s.hdr.prf
  rte := s.hdr.rte
  ena := s.hdr.ena
  cmp := s.hdr.cmp
  pr := s.hdr.pr
  hl := s.hdr.hl
  he := s.hdr.he
  fdl := s.hdr.fdl
  pid := s.hdr.pid
  pt := s.hdr.pt
  pra := s.hdr.pra
  rca := s.hdr.rca
  ttl := s.hdr.ttl

/-- Writes registers 0 to 15 and 17 from a decoded header, its checksum and its flag byte (41_header_codec.md R71).
PRA, RCA and TTL are 0 in a header decoded with RTE = 0. -/
def State.loadHeader (s : State) (h : Header) (hcs flags : Byte) : State :=
  { s with
    hdr :=
      { prv := h.prv, skid := h.skid, prf := h.prf, rte := h.rte, ena := h.ena, cmp := h.cmp, pr := h.pr, hl := h.hl,
        he := h.he, fdl := h.fdl, pid := h.pid, pt := h.pt, pra := h.pra, rca := h.rca, ttl := h.ttl, hcs := hcs,
        sfrcs := s.hdr.sfrcs, flags := flags } }

/-- The number of pairs, `x[BFN]` (10_state.md R23). -/
def State.pairCount (s : State) : Nat := s.bf.bfn.toNat

/-- The eight width registers in index order. -/
def State.allWidths (s : State) : List Nat :=
  [s.bf.bfw0.toNat, s.bf.bfw1.toNat, s.bf.bfw2.toNat, s.bf.bfw3.toNat, s.bf.bfw4.toNat, s.bf.bfw5.toNat,
    s.bf.bfw6.toNat, s.bf.bfw7.toNat]

/-- The eight value registers in index order. -/
def State.allValues (s : State) : List Nat :=
  [s.bf.bfv0.toNat, s.bf.bfv1.toNat, s.bf.bfv2.toNat, s.bf.bfv3.toNat, s.bf.bfv4.toNat, s.bf.bfv5.toNat,
    s.bf.bfv6.toNat, s.bf.bfv7.toNat]

/-- `ws`: the first min(n, 8) width registers (42_bitfield.md R79). -/
def State.widths (s : State) : List Nat := s.allWidths.take s.pairCount

/-- `vs`: the first min(n, 8) value registers (42_bitfield.md R79). -/
def State.values (s : State) : List Nat := s.allValues.take s.pairCount

/-- `x[RS]`: the start of the CRC range (43_crc8.md R87). -/
def State.rangeStart (s : State) : Nat := s.rng.rs.toNat

/-- `x[RL]`: the length of the CRC range (43_crc8.md R87). -/
def State.rangeLength (s : State) : Nat := s.rng.rl.toNat

/-- `FB[RS .. RS+RL)` (43_crc8.md R87). The range is not compared with FLEN (R87 (b), 44_crc16.md R92 (b)); that this
overrides the last sentence of 10_state.md R30 is DEDUCED (notes/assumptions/14.md). -/
def State.crcRange (s : State) : List Byte := s.slice .fb s.rangeStart s.rangeLength

/-- `x[FLEN]`. -/
def State.frameLength (s : State) : Nat := s.rng.flen.toNat

/-- `FB[0 .. FLEN)`: the valid part of FB (10_state.md R29). -/
def State.frame (s : State) : List Byte := s.slice .fb 0 s.frameLength

/-- `x[PLEN]`. -/
def State.payloadLength (s : State) : Nat := s.rng.plen.toNat

/-- `PB[0 .. PLEN)`: the valid part of PB (10_state.md R29). -/
def State.payload (s : State) : List Byte := s.slice .pb 0 s.payloadLength

end Sys2Proof.Machine
end

