-- ==== Sys2Proof/Machine/Bus.lean ====
section
/-! DEFINITION. The host's bus (20_memory.md R35): what reads and writes other than a CMD write do (10_state.md R17,
20_memory.md R45). -/

namespace Sys2Proof.Machine

/-- What a host read returns (10_state.md R17, 20_memory.md R35). Reading changes nothing (R45). -/
def State.busRead (s : State) : Target → Word
  | .reg r => s.reg r
  | .byte buf a => (s.byteAt buf a).setWidth 32
  | .reserved => 0

/-- What a host write other than a CMD write does (10_state.md R17, 20_memory.md R35). -/
def State.busWrite (s : State) (w : Word) : Target → State
  | .reg r => s.writeReg r w
  | .byte buf a => s.store buf a [w.setWidth 8]
  | .reserved => s

end Sys2Proof.Machine
end

