-- ==== Sys2Proof/WellFormed.lean ====
section
/-! DEFINITION. What is well formed: a command (always, for its word holds no operand), a host access
(20_memory.md R42), and a configuration (00_scope.md R9, R10). -/

namespace Sys2Proof

open Machine

/-- Every command is well formed: there is one format and it has no operand field (30_encoding.md R52). -/
def Instr.wellFormed : Instr → Bool
  | .nop | .crc8 | .crc16 | .bfpack | .bfunpack | .flgpack => true
  | .flgunpack | .hdrenc | .hdrdec | .pktenc | .pktdec | .clr => true

/-- The accesses that are part of the interface (20_memory.md R42). The reset input always is. -/
def HostAccess.wellFormed : HostAccess → Bool
  | .read size a => accessWellFormed size a.toNat
  | .write size a _ => accessWellFormed size a.toNat
  | .reset => true

/-- A legal configuration: the header lengths are fixed by the wire format (00_scope.md R10, 90_conflicts.md C1),
FB holds a header (41_header_codec.md R69), FDL can express every payload and the 17-bit counts every frame
(10_state.md R22, 70_reset_and_hazards.md R137). -/
abbrev Config.legal (cfg : Config) : Prop :=
  cfg.hlBase = 11 ∧ cfg.hlRouted = 16 ∧ cfg.pbSize ≤ 65535 ∧ 16 ≤ cfg.fbSize ∧ cfg.fbSize ≤ 65553

end Sys2Proof
end

