-- ==== Sys2Proof/Decode.lean ====
section
/-! DEFINITION. Command words (30_encoding.md R52, R53, R55): the decoder, total on any word and on any bytes, and
the encoder. -/

namespace Sys2Proof

/-- Why a decoder reads no command. -/
inductive DecodeReject where
  /-- A bit of `w[31:8]` is set (30_encoding.md R55). -/
  | reservedBitsSet
  /-- The opcode byte is none of the twelve (30_encoding.md R55). -/
  | unassignedOpcode
  /-- Not four bytes: a command word is 32 bits (30_encoding.md R52). -/
  | notOneWord
deriving DecidableEq, Repr

/-- OPCODE, bits 7:0 of a command word (30_encoding.md R52). -/
def opcodeOf (w : Word) : Nat := w.toNat % 256

/-- The reserved bits 31:8 of a command word (30_encoding.md R52). -/
def reservedOf (w : Word) : Nat := w.toNat / 256

/-- The opcode map of 30_encoding.md R53. -/
def decodeOpcode : Nat → Option Instr
  | 0x00 => some .nop
  | 0x01 => some .crc8
  | 0x02 => some .crc16
  | 0x03 => some .bfpack
  | 0x04 => some .bfunpack
  | 0x05 => some .flgpack
  | 0x06 => some .flgunpack
  | 0x10 => some .hdrenc
  | 0x11 => some .hdrdec
  | 0x20 => some .pktenc
  | 0x21 => some .pktdec
  | 0x7F => some .clr
  | _ => none

/-- The command a word stands for, or why it stands for none (30_encoding.md R53, R55). -/
def decode (w : Word) : Except DecodeReject Instr :=
  if reservedOf w ≠ 0 then .error .reservedBitsSet
  else
    match decodeOpcode (opcodeOf w) with
    | some i => .ok i
    | none => .error .unassignedOpcode

/-- The word on the bytes of a byte-addressed bus, little-endian (20_memory.md R40). -/
def wordOfBytes (b0 b1 b2 b3 : Byte) : Word :=
  BitVec.ofNat 32 (b0.toNat + 256 * b1.toNat + 65536 * b2.toNat + 16777216 * b3.toNat)

/-- The decoder on any bytes: a command word is exactly four (30_encoding.md R52, 20_memory.md R40). -/
def decodeBytes : List Byte → Except DecodeReject Instr
  | [b0, b1, b2, b3] => decode (wordOfBytes b0 b1 b2 b3)
  | _ => .error .notOneWord

/-- The command word of a command (30_encoding.md R53). -/
def encode : Instr → Word
  | .nop => 0x00000000
  | .crc8 => 0x00000001
  | .crc16 => 0x00000002
  | .bfpack => 0x00000003
  | .bfunpack => 0x00000004
  | .flgpack => 0x00000005
  | .flgunpack => 0x00000006
  | .hdrenc => 0x00000010
  | .hdrdec => 0x00000011
  | .pktenc => 0x00000020
  | .pktdec => 0x00000021
  | .clr => 0x0000007F

/-- The bytes of a word as a byte-addressed bus carries them (20_memory.md R40). -/
def bytesOfWord (w : Word) : List Byte :=
  [BitVec.ofNat 8 w.toNat, BitVec.ofNat 8 (w.toNat / 256), BitVec.ofNat 8 (w.toNat / 65536),
    BitVec.ofNat 8 (w.toNat / 16777216)]

/-- The command the decoder reads from an instruction of `nbits` bits whose bits are `w`, numbered as
spec/opcode_table.json numbers them. Every row of that table is one 32-bit word. -/
def decodeTableWord (nbits w : Nat) : Option Instr :=
  let bits := w % 2 ^ nbits
  if bits < 2 ^ 32 then
    match decodeBytes (bytesOfWord (BitVec.ofNat 32 bits)) with
    | .ok i => some i
    | .error _ => none
  else none

end Sys2Proof
end

