-- ==== Sys2Proof/Machine/BitField.lean ====
section
/-! DEFINITION. The bit-field utility and the header flag byte: BFPACK, BFUNPACK, FLGPACK, FLGUNPACK
(42_bitfield.md). -/

namespace Sys2Proof.Machine

/-- The lowest index, counted from `i`, whose width is 0 or above 8, with that width (42_bitfield.md R74). -/
def firstBadWidth : Nat → List Nat → Option (Nat × Nat)
  | _, [] => none
  | i, w :: ws => if w = 0 ∨ 8 < w then some (i, w) else firstBadWidth (i + 1) ws

/-- `bf_check(n, ws)` (42_bitfield.md R74): count, then each width in index order, then the sum. -/
def bfCheck (n : Nat) (ws : List Nat) : Except Err Unit :=
  if n = 0 ∨ 8 < n then .error ⟨.bitFieldBadWidths, regNum .bfn, n⟩
  else
    match firstBadWidth 0 ws with
    | some (i, w) => .error ⟨.bitFieldBadWidths, regNum .bfw0 + i, w⟩
    | none =>
      if ws.sum ≠ 8 then .error ⟨.bitFieldBadWidths, regNum .bfn, ws.sum⟩ else .ok ()

/-- A well-formed width list (42_bitfield.md R74): 1 to 8 fields, each of 1 to 8 bits, 8 bits in all. -/
abbrev widthsWellFormed (ws : List Nat) : Prop :=
  1 ≤ ws.length ∧ ws.length ≤ 8 ∧ (∀ w ∈ ws, 1 ≤ w ∧ w ≤ 8) ∧ ws.sum = 8

/-- The lowest index, counted from `i`, whose value does not fit its width (42_bitfield.md R75). -/
def firstOverflow : Nat → List Nat → List Nat → Option Nat
  | i, v :: vs, w :: ws => if 2 ^ w ≤ v then some i else firstOverflow (i + 1) vs ws
  | _, _, _ => none

/-- The sum of `v_i * 2^(p_i)` for the fields that lie below bit `p`: the next field occupies bits `p - 1` down to
`p - w` (42_bitfield.md R75). -/
def packBelow : Nat → List Nat → List Nat → Nat
  | p, v :: vs, w :: ws => v * 2 ^ (p - w) + packBelow (p - w) vs ws
  | _, _, _ => 0

/-- `bf_pack(vs, ws)` (42_bitfield.md R75): every value is tested before any bit is packed. -/
def bfPack (vs ws : List Nat) : Except Err Byte :=
  match firstOverflow 0 vs ws with
  | some i => .error ⟨.bitFieldOverflow, regNum .bfv0 + i, i⟩
  | none => .ok (byteOf (packBelow 8 vs ws))

/-- The fields of a byte below bit `p`, most significant first: `(b >> p_i) and (2^(w_i) - 1)`
(42_bitfield.md R76). -/
def unpackBelow (b : Nat) : Nat → List Nat → List Nat
  | _, [] => []
  | p, w :: ws => (b >>> (p - w)) % 2 ^ w :: unpackBelow b (p - w) ws

/-- `bf_unpack(b, ws)` (42_bitfield.md R76). -/
def bfUnpack (b : Byte) (ws : List Nat) : List Nat := unpackBelow b.toNat 8 ws

/-- The widths of PRF, RTE, ENA, CMP, PR (42_bitfield.md R78, 30_encoding.md R58). -/
def flagWidths : List Nat := [2, 1, 2, 1, 2]

/-- `flags_pack` (42_bitfield.md R78). -/
def flagsPack (prf rte ena cmp pr : Byte) : Except Err Byte :=
  bfPack [prf.toNat, rte.toNat, ena.toNat, cmp.toNat, pr.toNat] flagWidths

/-- `f[7:6]` (30_encoding.md R61). -/
def flagPrf (f : Byte) : Byte := byteOf (f.toNat / 64)

/-- `f[5]` (30_encoding.md R61). -/
def flagRte (f : Byte) : Byte := byteOf (f.toNat / 32 % 2)

/-- `f[4:3]` (30_encoding.md R61). -/
def flagEna (f : Byte) : Byte := byteOf (f.toNat / 8 % 4)

/-- `f[2]` (30_encoding.md R61). -/
def flagCmp (f : Byte) : Byte := byteOf (f.toNat / 4 % 2)

/-- `f[1:0]` (30_encoding.md R61). -/
def flagPr (f : Byte) : Byte := byteOf (f.toNat % 4)

/-- The body of BFPACK (42_bitfield.md R79). -/
def bfpackCommand (s : State) : State × Option Err :=
  match bfCheck s.pairCount s.widths with
  | .error e => (s, some e)
  | .ok _ =>
    match bfPack s.values s.widths with
    | .error e => (s, some e)
    | .ok b => (s.setBfbyte b, none)

/-- The body of BFUNPACK (42_bitfield.md R80). -/
def bfunpackCommand (s : State) : State × Option Err :=
  match bfCheck s.pairCount s.widths with
  | .error e => (s, some e)
  | .ok _ => (s.setBfValues (bfUnpack s.bf.bfbyte s.widths), none)

/-- The body of FLGPACK (42_bitfield.md R81): the packer's index i is reported as register 2 + i. -/
def flgpackCommand (s : State) : State × Option Err :=
  match flagsPack s.hdr.prf s.hdr.rte s.hdr.ena s.hdr.cmp s.hdr.pr with
  | .error e => (s, some ⟨.bitFieldOverflow, regNum .prf + e.ofs, e.ofs⟩)
  | .ok f => (s.setFlags f, none)

/-- The body of FLGUNPACK (42_bitfield.md R82). -/
def flgunpackCommand (s : State) : State × Option Err :=
  let f := s.hdr.flags
  (s.setFlagFields (flagPrf f) (flagRte f) (flagEna f) (flagCmp f) (flagPr f), none)

/-- BFPACK (42_bitfield.md R79). -/
def execBfpack (s : State) : Host.Outcome State Fault Refusal :=
  runCommand (encode .bfpack) bfpackCommand s

/-- BFUNPACK (42_bitfield.md R80). -/
def execBfunpack (s : State) : Host.Outcome State Fault Refusal :=
  runCommand (encode .bfunpack) bfunpackCommand s

/-- FLGPACK (42_bitfield.md R81). -/
def execFlgpack (s : State) : Host.Outcome State Fault Refusal :=
  runCommand (encode .flgpack) flgpackCommand s

/-- FLGUNPACK (42_bitfield.md R82). -/
def execFlgunpack (s : State) : Host.Outcome State Fault Refusal :=
  runCommand (encode .flgunpack) flgunpackCommand s

end Sys2Proof.Machine
end

