-- ==== Sys2Proof/Machine/Crc.lean ====
section
/-! DEFINITION. The CRC-8 and CRC-16 generators and the commands CRC8 and CRC16 (43_crc8.md, 44_crc16.md). -/

namespace Sys2Proof.Machine

/-- One shift of the `repeat 8 times` loop, at either width (43_crc8.md R83, 44_crc16.md R88): the bit shifted out is
discarded (70_reset_and_hazards.md R137 (e)). -/
def crcShift {n : Nat} (poly c : BitVec n) : BitVec n :=
  if c.msb then (c <<< 1) ^^^ poly else c <<< 1

/-- `k` shifts. -/
def crcShifts {n : Nat} (poly : BitVec n) : Nat → BitVec n → BitVec n
  | 0, c => c
  | k + 1, c => crcShifts poly k (crcShift poly c)

/-- `bitreverse8`, `bitreverse16` where the parameter asks for it (43_crc8.md R83, 44_crc16.md R88). -/
def reflectIf {n : Nat} (reflect : Bool) (v : BitVec n) : BitVec n :=
  if reflect then v.reverse else v

/-- The loop body of 43_crc8.md R83 for one byte. -/
def crc8Byte (cfg : Config) (c b : Byte) : Byte :=
  crcShifts cfg.crc8Poly 8 (c ^^^ reflectIf cfg.crc8Reflect b)

/-- The loop of 43_crc8.md R83 over a byte sequence, lowest offset first, from a register value. -/
def crc8Loop (cfg : Config) (c : Byte) (s : List Byte) : Byte := s.foldl (crc8Byte cfg) c

/-- `crc8(s)` (43_crc8.md R83). DESIGN CHOICE (notes/assumptions/15.md): the pseudocode holds for the empty sequence
under reflection too, where R85 (b) reads otherwise for a CRC8_INIT that is no palindrome. -/
def crc8 (cfg : Config) (s : List Byte) : Byte :=
  reflectIf cfg.crc8Reflect (crc8Loop cfg cfg.crc8Init s) ^^^ cfg.crc8Xorout

/-- The loop body of 44_crc16.md R88 for one byte. -/
def crc16Byte (cfg : Config) (c : Half) (b : Byte) : Half :=
  crcShifts cfg.crc16Poly 8 (c ^^^ ((reflectIf cfg.crc16Reflect b).setWidth 16 <<< 8))

/-- The loop of 44_crc16.md R88 over a byte sequence, lowest offset first, from a register value. -/
def crc16Loop (cfg : Config) (c : Half) (s : List Byte) : Half := s.foldl (crc16Byte cfg) c

/-- `crc16(s)` (44_crc16.md R88). DESIGN CHOICE (notes/assumptions/15.md): the pseudocode holds for the empty sequence
under reflection too, where R90 (b) and 90_conflicts.md C5 read otherwise for a CRC16_INIT that is no palindrome. -/
def crc16 (cfg : Config) (s : List Byte) : Half :=
  reflectIf cfg.crc16Reflect (crc16Loop cfg cfg.crc16Init s) ^^^ cfg.crc16Xorout

/-- The byte table `T8` of 43_crc8.md R84. -/
def crc8Table (cfg : Config) (i : Byte) : Byte := crcShifts cfg.crc8Poly 8 i

/-- The byte table `T16` of 44_crc16.md R89. -/
def crc16Table (cfg : Config) (i : Byte) : Half := crcShifts cfg.crc16Poly 8 (i.setWidth 16 <<< 8)

/-- The range test of both commands: the sum is exact, not reduced to 17 bits (43_crc8.md R87,
60_exceptions.md R117). -/
def rangeError (cfg : Config) (s : State) : Option Err :=
  if cfg.fbSize < s.rangeStart + s.rangeLength then
    some ⟨.badRange, regNum .rl, s.rangeStart + s.rangeLength⟩
  else none

/-- The body of CRC8 (43_crc8.md R87). -/
def crc8Command (cfg : Config) (s : State) : State × Option Err :=
  match rangeError cfg s with
  | some e => (s, some e)
  | none => (s.setCrc8r (crc8 cfg s.crcRange), none)

/-- The body of CRC16 (44_crc16.md R92). -/
def crc16Command (cfg : Config) (s : State) : State × Option Err :=
  match rangeError cfg s with
  | some e => (s, some e)
  | none => (s.setCrc16r (crc16 cfg s.crcRange), none)

/-- CRC8 (43_crc8.md R87). -/
def execCrc8 (s : State) : Host.Outcome State Fault Refusal :=
  runCommand (encode .crc8) (crc8Command Config.hardware) s

/-- CRC16 (44_crc16.md R92). -/
def execCrc16 (s : State) : Host.Outcome State Fault Refusal :=
  runCommand (encode .crc16) (crc16Command Config.hardware) s

end Sys2Proof.Machine
end

