-- ==== Sys2Proof/Machine/HeaderCodec.lean ====
section
/-! DEFINITION. The Header Codec: HDRENC and HDRDEC (41_header_codec.md). -/

namespace Sys2Proof.Machine

/-- `11 + 5*RTE`: the header length a routing flag implies (41_header_codec.md R67, 30_encoding.md R62). -/
def impliedLength (cfg : Config) (rte : Byte) : Nat :=
  cfg.hlBase + (cfg.hlRouted - cfg.hlBase) * rte.toNat

/-- `err(InvalidField, field, ofs)` on a field register. -/
def invalidField (r : Reg) (ofs : Nat) : Err := ⟨.invalidField, regNum r, ofs⟩

/-- The first of the eight checks of 41_header_codec.md R67 that a header value fails. -/
def encodeError (cfg : Config) (h : Header) : Option Err :=
  if 3 < h.prf.toNat then some (invalidField .prf 2)
  else if 1 < h.rte.toNat then some (invalidField .rte 2)
  else if 3 < h.ena.toNat then some (invalidField .ena 2)
  else if 1 < h.cmp.toNat then some (invalidField .cmp 2)
  else if 3 < h.pr.toNat then some (invalidField .pr 2)
  else if h.prv ∉ cfg.supportedPrv then some (invalidField .prv 0)
  else if h.prf ≠ 0 then some (invalidField .prf 2)
  else if h.hl.toNat ≠ impliedLength cfg h.rte then some (invalidField .hl 3)
  else none

/-- PRA, RCA and TTL as they stand in a header with RTE = 1 (41_header_codec.md R68, 90_conflicts.md C4). -/
def routingBytes (h : Header) : List Byte :=
  if h.rte = 1 then
    [lowByte h.pra, highByte h.pra, lowByte h.rca, highByte h.rca, h.ttl]
  else []

/-- The bytes `b` of 41_header_codec.md R68, all that precede HCS, for a packed flag byte. -/
def headerBytes (h : Header) (flags : Byte) : List Byte :=
  [h.prv, h.skid, flags, h.hl, h.he, lowByte h.fdl, highByte h.fdl, lowByte h.pid, highByte h.pid, h.pt] ++
    routingBytes h

/-- `hdr_enc(h)` (41_header_codec.md R67, R68). -/
def hdrEnc (cfg : Config) (h : Header) : Except Err (List Byte) :=
  match encodeError cfg h with
  | some e => .error e
  | none =>
    match flagsPack h.prf h.rte h.ena h.cmp h.pr with
    | .error e => .error e
    | .ok f => .ok (headerBytes h f ++ [crc8 cfg (headerBytes h f)])

/-- What a successful `hdr_dec` gives: the header, its transmitted checksum, and the bytes consumed
(41_header_codec.md R70). -/
structure HeaderDecoded where
  header : Header
  hcs : Byte
  consumed : Nat
deriving DecidableEq, Repr

/-- `s[i]`. Every index a rule uses exists (41_header_codec.md R70); beyond the end the value is 0 and never used
(notes/assumptions/8.md). -/
def byteOfSeq (s : List Byte) (i : Nat) : Byte := s.getD i 0

/-- `s[i] + 256*s[i+1]` (41_header_codec.md R70, 30_encoding.md R60). -/
def halfOfSeq (s : List Byte) (i : Nat) : Half := halfOf (byteOfSeq s i) (byteOfSeq s (i + 1))

/-- The header of step 8 of 41_header_codec.md R70. The routing fields are 0 when RTE = 0 (R66, R71). -/
def headerOfBytes (s : List Byte) : Header :=
  let f := byteOfSeq s 2
  let routed := flagRte f = 1
  { prv := byteOfSeq s 0
    skid := byteOfSeq s 1
    prf := flagPrf f
    rte := flagRte f
    ena := flagEna f
    cmp := flagCmp f
    pr := flagPr f
    hl := byteOfSeq s 3
    he := byteOfSeq s 4
    fdl := halfOfSeq s 5
    pid := halfOfSeq s 7
    pt := byteOfSeq s 9
    pra := if routed then halfOfSeq s 10 else 0
    rca := if routed then halfOfSeq s 12 else 0
    ttl := if routed then byteOfSeq s 14 else 0 }

/-- The first of steps 1 to 7 of 41_header_codec.md R70 that a byte sequence fails. -/
def decodeError (cfg : Config) (s : List Byte) : Option Err :=
  if s.length < 4 then some ⟨.truncated, headerRegion, 4⟩
  else
    let hl := (byteOfSeq s 3).toNat
    if hl = 0 then some ⟨.checksumMismatch, regNum .hl, 3⟩
    else if s.length < hl then some ⟨.truncated, headerRegion, hl⟩
    else if crc8 cfg (s.take (hl - 1)) ≠ byteOfSeq s (hl - 1) then some ⟨.checksumMismatch, regNum .hcs, hl - 1⟩
    else if byteOfSeq s 0 ∉ cfg.supportedPrv then some ⟨.unsupportedVersion, regNum .prv, 0⟩
    else if flagPrf (byteOfSeq s 2) ≠ 0 then some ⟨.unsupportedVersion, regNum .prf, 2⟩
    else if hl ≠ impliedLength cfg (flagRte (byteOfSeq s 2)) then some (invalidField .hl 3)
    else none

/-- `hdr_dec(s)` (41_header_codec.md R70). -/
def hdrDec (cfg : Config) (s : List Byte) : Except Err HeaderDecoded :=
  match decodeError cfg s with
  | some e => .error e
  | none =>
    let hl := (byteOfSeq s 3).toNat
    .ok { header := headerOfBytes s, hcs := byteOfSeq s (hl - 1), consumed := hl }

/-- The body of HDRENC (41_header_codec.md R69). -/
def hdrencCommand (cfg : Config) (s : State) : State × Option Err :=
  match hdrEnc cfg s.header with
  | .error e => (s, some e)
  | .ok b =>
    ((((s.store .fb 0 b).setFlags (byteOfSeq b 2)).setHcs (byteOfSeq b (b.length - 1))).setFlen b.length, none)

/-- What HDRDEC and PKTDEC write when the header has been decoded: registers 0 to 15 and 17, PHASE and CUR
(41_header_codec.md R71, 45_packet_codec.md R97). -/
def commitHeader (s : State) (d : HeaderDecoded) : State :=
  (s.loadHeader d.header d.hcs (s.byteAt .fb 2)).setPhase .headerParsed d.consumed

/-- The test of FLEN that both decoders make first (41_header_codec.md R71, 60_exceptions.md R117). -/
def frameLengthError (cfg : Config) (s : State) : Option Err :=
  if cfg.fbSize < s.frameLength then some ⟨.badRange, regNum .flen, s.frameLength⟩ else none

/-- The body of HDRDEC (41_header_codec.md R71): PHASE and CUR restart whatever happens. -/
def hdrdecCommand (cfg : Config) (s : State) : State × Option Err :=
  let t := s.setPhase .start 0
  match frameLengthError cfg t with
  | some e => (t, some e)
  | none =>
    match hdrDec cfg t.frame with
    | .error e => (t, some e)
    | .ok d => (commitHeader t d, none)

/-- HDRENC (41_header_codec.md R69). -/
def execHdrenc (s : State) : Host.Outcome State Fault Refusal :=
  runCommand (encode .hdrenc) (hdrencCommand Config.hardware) s

/-- HDRDEC (41_header_codec.md R71). -/
def execHdrdec (s : State) : Host.Outcome State Fault Refusal :=
  runCommand (encode .hdrdec) (hdrdecCommand Config.hardware) s

end Sys2Proof.Machine
end

