-- ==== Sys2Proof/Machine/PacketCodec.lean ====
section
/-! DEFINITION. The Packet Codec: PKTENC and PKTDEC with the decode state machine (45_packet_codec.md), and the
sender's PID successor (70_reset_and_hazards.md R136). -/

namespace Sys2Proof.Machine

/-- `frame_len(HL, FDL)` (30_encoding.md R59). -/
def frameLen (hl fdl : Nat) : Nat := hl + fdl + (if 0 < fdl then 2 else 0)

/-- The header value that is encoded with a payload: FDL is its length (45_packet_codec.md R94). -/
def Header.withLength (h : Header) (n : Nat) : Header := { h with fdl := BitVec.ofNat 16 n }

/-- The SFRCS bytes, low byte first, absent for an empty payload (45_packet_codec.md R94, 44_crc16.md R91). -/
def checksumBytes (cfg : Config) (p : List Byte) : List Byte :=
  if 0 < p.length then [lowByte (crc16 cfg p), highByte (crc16 cfg p)] else []

/-- `pkt_enc(h, p)` (45_packet_codec.md R94). -/
def pktEnc (cfg : Config) (h : Header) (p : List Byte) : Except Err (List Byte) :=
  match hdrEnc cfg (h.withLength p.length) with
  | .error e => .error e
  | .ok s => .ok (s ++ p ++ checksumBytes cfg p)

/-- The SFRCS register for a payload: its CRC-16, 0 when there is none (45_packet_codec.md R95). -/
def checksumRegister (cfg : Config) (p : List Byte) : Half :=
  if 0 < p.length then crc16 cfg p else 0

/-- How steps 2 to 5 of 45_packet_codec.md R96 can end once the header is decoded. -/
inductive PayloadResult where
  /-- Fewer than `need` bytes: the phase stays HeaderParsed. -/
  | short (e : Err)
  /-- The payload and the received SFRCS disagree: ChecksumFailed. -/
  | mismatch (payload : List Byte) (received : Half) (e : Err)
  /-- ChecksumValidated; `received` is 0 when FDL = 0. -/
  | valid (payload : List Byte) (received : Half) (need : Nat)
deriving DecidableEq, Repr

/-- Steps 2 to 5 of `pkt_dec(s)` for a header of `hl` bytes that declares `fdl` payload bytes
(45_packet_codec.md R96). -/
def decodePayload (cfg : Config) (s : List Byte) (hl fdl : Nat) : PayloadResult :=
  let need := frameLen hl fdl
  let p := (s.drop hl).take fdl
  let rx := halfOfSeq s (hl + fdl)
  if s.length < need then
    .short ⟨.truncated, if s.length < hl + fdl then payloadRegion else regNum .sfrcs, need⟩
  else if fdl = 0 then .valid [] 0 need
  else if crc16 cfg p ≠ rx then .mismatch p rx ⟨.payloadChecksumMismatch, regNum .sfrcs, hl + fdl⟩
  else .valid p rx need

/-- What a successful `pkt_dec` gives (45_packet_codec.md R96). -/
structure PacketDecoded where
  header : Header
  hcs : Byte
  payload : List Byte
  consumed : Nat
deriving DecidableEq, Repr

/-- `pkt_dec(s)` (45_packet_codec.md R96). -/
def pktDec (cfg : Config) (s : List Byte) : Except Err PacketDecoded :=
  match hdrDec cfg s with
  | .error e => .error e
  | .ok d =>
    match decodePayload cfg s d.consumed d.header.fdl.toNat with
    | .short e => .error e
    | .mismatch _ _ e => .error e
    | .valid p _ need => .ok { header := d.header, hcs := d.hcs, payload := p, consumed := need }

/-- The phase in which `pkt_dec(s)` ends (45_packet_codec.md R96, R99). -/
def pktDecPhase (cfg : Config) (s : List Byte) : Phase :=
  match hdrDec cfg s with
  | .error _ => .start
  | .ok d =>
    match decodePayload cfg s d.consumed d.header.fdl.toNat with
    | .short _ => .headerParsed
    | .mismatch _ _ _ => .checksumFailed
    | .valid _ _ _ => .checksumValidated

/-- The body of PKTENC (45_packet_codec.md R95): everything is checked before anything is written. -/
def pktencCommand (cfg : Config) (s : State) : State × Option Err :=
  if cfg.pbSize < s.payloadLength then (s, some ⟨.badRange, regNum .plen, s.payloadLength⟩)
  else
    match hdrEnc cfg (s.header.withLength s.payloadLength) with
    | .error e => (s, some e)
    | .ok b =>
      let p := s.payload
      let f := b ++ p ++ checksumBytes cfg p
      if cfg.fbSize < f.length then (s, some ⟨.badRange, regNum .flen, f.length⟩)
      else
        ((((((s.store .fb 0 f).setFdl p.length).setSfrcs (checksumRegister cfg p)).setFlags (byteOfSeq b 2)).setHcs
          (byteOfSeq b (b.length - 1))).setFlen f.length, none)

/-- What PKTDEC writes when the payload has been read: `PB[0 .. fdl)`, PLEN and SFRCS (45_packet_codec.md R97). -/
def commitPayload (s : State) (p : List Byte) (received : Half) : State :=
  ((s.store .pb 0 p).setPlen p.length).setSfrcs received

/-- The body of PKTDEC (45_packet_codec.md R97): what each completed phase wrote stays (R98). -/
def pktdecCommand (cfg : Config) (s : State) : State × Option Err :=
  let t := s.setPhase .start 0
  match frameLengthError cfg t with
  | some e => (t, some e)
  | none =>
    match hdrDec cfg t.frame with
    | .error e => (t, some e)
    | .ok d =>
      let u := commitHeader t d
      let fdl := d.header.fdl.toNat
      if cfg.pbSize < fdl then (u, some ⟨.badRange, regNum .plen, fdl⟩)
      else
        match decodePayload cfg t.frame d.consumed fdl with
        | .short e => (u, some e)
        | .mismatch p rx e => ((commitPayload u p rx).setPhase .checksumFailed (frameLen d.consumed fdl), some e)
        | .valid p rx need => ((commitPayload u p rx).setPhase .checksumValidated need, none)

/-- PKTENC (45_packet_codec.md R95). -/
def execPktenc (s : State) : Host.Outcome State Fault Refusal :=
  runCommand (encode .pktenc) (pktencCommand Config.hardware) s

/-- PKTDEC (45_packet_codec.md R97). -/
def execPktdec (s : State) : Host.Outcome State Fault Refusal :=
  runCommand (encode .pktdec) (pktdecCommand Config.hardware) s

/-- `pid_next` (70_reset_and_hazards.md R136): the sender's duty, no command of the block. -/
def pidNext (p : Half) : Half := BitVec.ofNat 16 ((p.toNat + 1) % 65536)

end Sys2Proof.Machine
end

