-- ==== Sys2Proof/Machine/System.lean ====
section
/-! DEFINITION. System commands: NOP and CLR (46_system.md). -/

namespace Sys2Proof.Machine

/-- NOP (46_system.md R103): the completion clears the error report; nothing else changes. -/
def execNop (s : State) : Host.Outcome State Fault Refusal :=
  runCommand (encode .nop) (fun t => (t, none)) s

/-- CLR (46_system.md R104): every register, CMD and STATUS included, to its reset value; PB and FB keep their bytes.
The one command that does not end with DONE = 1 (30_encoding.md R54). -/
def execClr (s : State) : Host.Outcome State Fault Refusal :=
  .next s.clearRegisters

end Sys2Proof.Machine
end

