-- ==== Sys2Proof/Machine/Dispatch.lean ====
section
/-! DEFINITION. One arm per command of 30_encoding.md R53. -/

namespace Sys2Proof.Machine

def exec (i : Instr) (s : State) : Host.Outcome State Fault Refusal :=
  match i with
  | .nop => Sys2Proof.Machine.execNop s
  | .crc8 => Sys2Proof.Machine.execCrc8 s
  | .crc16 => Sys2Proof.Machine.execCrc16 s
  | .bfpack => Sys2Proof.Machine.execBfpack s
  | .bfunpack => Sys2Proof.Machine.execBfunpack s
  | .flgpack => Sys2Proof.Machine.execFlgpack s
  | .flgunpack => Sys2Proof.Machine.execFlgunpack s
  | .hdrenc => Sys2Proof.Machine.execHdrenc s
  | .hdrdec => Sys2Proof.Machine.execHdrdec s
  | .pktenc => Sys2Proof.Machine.execPktenc s
  | .pktdec => Sys2Proof.Machine.execPktdec s
  | .clr => Sys2Proof.Machine.execClr s

end Sys2Proof.Machine
end

