-- ==== Sys2Proof/Machine/HostStep.lean ====
section
/-! DEFINITION. One step of the machine: the next access of the host takes effect, a CMD write together with the
command it starts (10_state.md R16, 30_encoding.md R54, 20_memory.md R47). -/

namespace Sys2Proof.Machine

/-- A write of a word to CMD (30_encoding.md R54, R55). -/
def commandWrite (w : Word) (s : State) : Host.Outcome State Fault Refusal :=
  match decode w with
  | .ok i => exec i s
  | .error _ => illegalCommand w s

/-- One host access. The write of CMD is the only one that starts a command (20_memory.md R45). -/
def hostAccess (a : HostAccess) (s : State) : Host.Outcome State Fault Refusal :=
  match a with
  | .reset => .next s.assertReset
  | .read size addr =>
    match busTarget size addr.toNat with
    | none => .refused (.accessOutsideInterface a)
    | some t => .next (s.answer (some (s.busRead t)))
  | .write size addr w =>
    match busTarget size addr.toNat with
    | none => .refused (.accessOutsideInterface a)
    | some (.reg .cmd) => commandWrite w (s.answer none)
    | some t => .next ((s.answer none).busWrite w t)

/-- One step: the oldest pending access. With none pending the block is idle and all state is held
(60_exceptions.md R128). -/
def hostStep (s : State) : Host.Outcome State Fault Refusal :=
  match s.pending with
  | [] => .next s
  | a :: rest => hostAccess a (s.withPending rest)

/-- The bus address of CMD, 0xA8 (20_memory.md R35, 30_encoding.md R64). -/
def cmdAddr : BusAddr := 0x000A8

/-- The command word of an instruction of `nbits` bits `w`: every bit above `nbits` is 0. -/
def tableWord (nbits w : Nat) : Word := BitVec.ofNat 32 (w % 2 ^ nbits)

/-- The host is about to write a word to CMD, before whatever else it is going to do. -/
def State.withCommand (s : State) (w : Word) : State :=
  s.withPending (.write .word cmdAddr w :: s.pending)

end Sys2Proof.Machine
end

