-- ==== Sys2Proof/Machine/Step.lean ====
section
/-! DEFINITION. The step of the machine, and where its next instruction is taken from: a command word is consumed when
the host writes it to CMD (20_memory.md R50, 10_state.md R28), so it is placed as the host's next access. -/

namespace Sys2Proof.Machine

/-- One step (10_state.md R16). -/
def step (s : State) : Host.Outcome State Fault Refusal := hostStep s

/-- The state in which the host's next access writes the command word to CMD (notes/assumptions/3.md, 13.md). -/
def State.withFetchWord (s : State) (nbits w : Nat) : State := s.withCommand (tableWord nbits w)

end Sys2Proof.Machine
end

