-- ==== Sys2Proof/Safety.lean ====
section
/-! DEFINITION. The terms claims are stated in: what a completed command reports, what it leaves unchanged, the
invariant of the machine, and what a safe host script is. -/

namespace Sys2Proof.Machine

/-! ## Frames -/

/-- Every register but the listed ones holds in `t` what it holds in `s`. -/
def sameRegsExcept (s t : State) (written : List Reg) : Prop :=
  ∀ r, r ∉ written → t.reg r = s.reg r

/-- Every byte of a buffer reads in `t` as in `s`. -/
def sameBuffer (buf : Buf) (s t : State) : Prop := ∀ a, t.byteAt buf a = s.byteAt buf a

/-- Every byte of a buffer outside the offsets `lo` to `hi - 1` reads in `t` as in `s`. -/
def sameOutside (buf : Buf) (lo hi : Nat) (s t : State) : Prop :=
  ∀ a, ¬(lo ≤ a ∧ a < hi) → t.byteAt buf a = s.byteAt buf a

/-- The model's own fields are unchanged. -/
def sameHost (s t : State) : Prop := t.pending = s.pending ∧ t.reply = s.reply ∧ t.epoch = s.epoch

/-- The registers every command writes (10_state.md R32). -/
def reportRegs : List Reg := [.cmd, .status, .errcode, .errfield, .errofs]

/-! ## Reports -/

/-- The state reports normal completion of the command word `w` (30_encoding.md R54). -/
def reportsOk (w : Word) (t : State) : Prop :=
  t.reg .cmd = w ∧ t.reg .status = 2 ∧ t.reg .errcode = 0 ∧ t.reg .errfield = 0 ∧ t.reg .errofs = 0

/-- The state reports that the command word `w` ended at `raise code(field, ofs)` (60_exceptions.md R105). -/
def reportsError (w : Word) (code field ofs : Nat) (t : State) : Prop :=
  t.reg .cmd = w ∧ t.reg .status = 6 ∧ (t.reg .errcode).toNat = code ∧ (t.reg .errfield).toNat = field ∧
    (t.reg .errofs).toNat = ofs

/-! ## The invariant -/

/-- What every step keeps (10_state.md R25, R27, R28, R29, 60_exceptions.md R106 to R108,
93_implementation_defined.md I24). -/
structure State.Inv (s : State) : Prop where
  pbCanonical : s.pb.wf
  fbCanonical : s.fb.wf
  pbInside : ∀ c ∈ s.pb, c.1 < 65535
  fbInside : ∀ c ∈ s.fb, c.1 < 65553
  notBusy : s.busy = false
  errMeansCode : s.err = true ↔ s.ctl.errcode ≠ 0
  errMeansDone : s.err = true → s.done = true
  errcodeProduced : s.ctl.errcode.toNat ≤ 9
  errfieldProduced : s.ctl.errfield.toNat ≤ 48 ∨ s.ctl.errfield.toNat = 0x80 ∨ s.ctl.errfield.toNat = 0x81
  phaseAtRest : s.ctl.phase = Phase.start.num ∨ s.ctl.phase = Phase.headerParsed.num ∨
    s.ctl.phase = Phase.checksumValidated.num ∨ s.ctl.phase = Phase.checksumFailed.num
  startMeansNothingConsumed : s.ctl.phase = Phase.start.num → s.ctl.cur = 0
  cursorInside : s.ctl.cur.toNat ≤ 65553

/-! ## The bus -/

/-- The reserved addresses of the aperture (20_memory.md R35, 93_implementation_defined.md I20). -/
abbrev reservedAddress (a : Nat) : Prop :=
  (0x000C4 ≤ a ∧ a ≤ 0x0FFFF) ∨ a = 0x1FFFF ∨ (0x30011 ≤ a ∧ a ≤ 0x3FFFF)

/-! ## Safe scripts -/

/-- The host keeps to the interface of 20_memory.md R42 in every access it is still going to make. -/
def State.scriptWellFormed (s : State) : Prop := ∀ a ∈ s.pending, a.wellFormed = true

/-- A safe run: no number of steps ends in a fault or a refusal. -/
def SafeRun (s : State) : Prop := ∀ n, ∃ t, core.run n s = .next t

/-! ## Values as numbers -/

/-- `x[NAME]` as a number. -/
def State.regNat (s : State) (r : Reg) : Nat := (s.reg r).toNat

/-- `FB[a]` as a number. -/
def State.fbNat (s : State) (a : Nat) : Nat := (s.byteAt .fb a).toNat

/-- `MemRead(FB, a, 2)` (00_scope.md R13). -/
def State.fbHalf (s : State) (a : Nat) : Nat := s.fbNat a + 256 * s.fbNat (a + 1)

/-- `PRF*64 + RTE*32 + ENA*8 + CMP*4 + PR` (30_encoding.md R58). -/
def State.flagSum (s : State) : Nat :=
  s.regNat .prf * 64 + s.regNat .rte * 32 + s.regNat .ena * 8 + s.regNat .cmp * 4 + s.regNat .pr

/-! ## The wire format by offset (30_encoding.md R56, R57) -/

/-- Frame offsets 0 to 9 of `t` hold the fields of `s`, with `fdl` in the FDL field (30_encoding.md R56). -/
def fixedFieldsAt (s t : State) (fdl : Nat) : Prop :=
  t.fbNat 0 = s.regNat .prv ∧ t.fbNat 1 = s.regNat .skid ∧ t.fbNat 2 = s.flagSum ∧ t.fbNat 3 = s.regNat .hl ∧
    t.fbNat 4 = s.regNat .he ∧ t.fbHalf 5 = fdl ∧ t.fbHalf 7 = s.regNat .pid ∧ t.fbNat 9 = s.regNat .pt

/-- Frame offsets 10 to 14 of `t` hold the routing block of `s` (30_encoding.md R57). -/
def routingBlockAt (s t : State) : Prop :=
  t.fbHalf 10 = s.regNat .pra ∧ t.fbHalf 12 = s.regNat .rca ∧ t.fbNat 14 = s.regNat .ttl

/-- The header of `s` stands in FB of `t` in `hl` bytes: the fixed fields, the routing block when there are 16 bytes,
and HCS, the CRC-8 of all that precedes it, at the end (30_encoding.md R56, R57, 43_crc8.md R86). -/
def headerAt (s t : State) (fdl hl : Nat) : Prop :=
  fixedFieldsAt s t fdl ∧ (hl = 16 → routingBlockAt s t) ∧
    t.byteAt .fb (hl - 1) = crc8 Config.hardware (t.slice .fb 0 (hl - 1))

/-- The header operands are encodable (41_header_codec.md R67), with the checks written out for this hardware. -/
abbrev State.encodable (s : State) : Prop :=
  s.regNat .prv = 1 ∧ s.regNat .prf = 0 ∧ s.regNat .rte ≤ 1 ∧ s.regNat .ena ≤ 3 ∧ s.regNat .cmp ≤ 1 ∧
    s.regNat .pr ≤ 3 ∧ s.regNat .hl = 11 + 5 * s.regNat .rte

/-! ## What a decoder finds in FB (41_header_codec.md R70, 45_packet_codec.md R96) -/

/-- Steps 1 to 3 of 41_header_codec.md R70 pass and FLEN lies inside FB: the declared span is there. -/
abbrev State.spanThere (s : State) : Prop :=
  4 ≤ s.regNat .flen ∧ s.regNat .flen ≤ 65553 ∧ s.fbNat 3 ≠ 0 ∧ s.fbNat 3 ≤ s.regNat .flen

/-- Step 4 passes: the transmitted HCS is the CRC-8 of the span before it. -/
abbrev State.headerChecksumGood (s : State) : Prop :=
  crc8 Config.hardware (s.slice .fb 0 (s.fbNat 3 - 1)) = s.byteAt .fb (s.fbNat 3 - 1)

/-- Steps 5 and 6 pass: PRV = 1 and the PRF bits are 0. -/
abbrev State.versionGood (s : State) : Prop := s.fbNat 0 = 1 ∧ s.fbNat 2 / 64 = 0

/-- Step 7 passes: HL is the length the RTE bit implies. -/
abbrev State.lengthGood (s : State) : Prop := s.fbNat 3 = 11 + 5 * (s.fbNat 2 / 32 % 2)

/-- FB holds a decodable header. -/
abbrev State.headerGood (s : State) : Prop :=
  s.spanThere ∧ s.headerChecksumGood ∧ s.versionGood ∧ s.lengthGood

/-- The registers of `t` hold the header that stands in FB of `s` (41_header_codec.md R71). -/
def headerLoaded (s t : State) : Prop :=
  t.regNat .prv = s.fbNat 0 ∧ t.regNat .skid = s.fbNat 1 ∧ t.regNat .prf = s.fbNat 2 / 64 ∧
    t.regNat .rte = s.fbNat 2 / 32 % 2 ∧ t.regNat .ena = s.fbNat 2 / 8 % 4 ∧ t.regNat .cmp = s.fbNat 2 / 4 % 2 ∧
    t.regNat .pr = s.fbNat 2 % 4 ∧ t.regNat .hl = s.fbNat 3 ∧ t.regNat .he = s.fbNat 4 ∧
    t.regNat .fdl = s.fbHalf 5 ∧ t.regNat .pid = s.fbHalf 7 ∧ t.regNat .pt = s.fbNat 9 ∧
    t.regNat .pra = (if s.fbNat 2 / 32 % 2 = 1 then s.fbHalf 10 else 0) ∧
    t.regNat .rca = (if s.fbNat 2 / 32 % 2 = 1 then s.fbHalf 12 else 0) ∧
    t.regNat .ttl = (if s.fbNat 2 / 32 % 2 = 1 then s.fbNat 14 else 0) ∧
    t.regNat .hcs = s.fbNat (s.fbNat 3 - 1) ∧ t.regNat .flags = s.fbNat 2

/-- Registers 0 to 15 and 17 (41_header_codec.md R71). -/
def loadedRegs : List Reg :=
  [.prv, .skid, .prf, .rte, .ena, .cmp, .pr, .hl, .he, .fdl, .pid, .pt, .pra, .rca, .ttl, .hcs, .flags]

/-- HL + FDL of the frame in FB. -/
def State.payloadEnd (s : State) : Nat := s.fbNat 3 + s.fbHalf 5

/-- `need`: the length of the frame in FB (45_packet_codec.md R96). -/
def State.frameNeed (s : State) : Nat := s.payloadEnd + (if 0 < s.fbHalf 5 then 2 else 0)

/-! ## What a command reads and writes (10_state.md R32) -/

/-- The registers of the "writes" columns of 10_state.md R32, besides the report. -/
def writtenRegs : Instr → List Reg
  | .nop => []
  | .crc8 => [.crc8r]
  | .crc16 => [.crc16r]
  | .bfpack => [.bfbyte]
  | .bfunpack => [.bfv0, .bfv1, .bfv2, .bfv3, .bfv4, .bfv5, .bfv6, .bfv7]
  | .flgpack => [.flags]
  | .flgunpack => [.prf, .rte, .ena, .cmp, .pr]
  | .hdrenc => [.flen, .flags, .hcs]
  | .hdrdec => loadedRegs ++ [.phase, .cur]
  | .pktenc => [.fdl, .flags, .hcs, .sfrcs, .flen]
  | .pktdec => loadedRegs ++ [.sfrcs, .plen, .phase, .cur]
  | .clr => allRegs

/-- The header registers both encoders read (10_state.md R32). -/
def State.headerOperands (s : State) : List Reg :=
  [.prv, .skid, .prf, .rte, .ena, .cmp, .pr, .hl, .he, .pid, .pt] ++
    (if s.regNat .rte = 1 then [.pra, .rca, .ttl] else [])

/-- BFW0 .. BFW(n-1) for the n in BFN; none when n is above 8 (42_bitfield.md R79). -/
def State.widthOperands (s : State) : List Reg :=
  if s.regNat .bfn ≤ 8 then [.bfw0, .bfw1, .bfw2, .bfw3, .bfw4, .bfw5, .bfw6, .bfw7].take (s.regNat .bfn) else []

/-- BFV0 .. BFV(n-1) for the n in BFN; none when n is above 8 (42_bitfield.md R79). -/
def State.valueOperands (s : State) : List Reg :=
  if s.regNat .bfn ≤ 8 then [.bfv0, .bfv1, .bfv2, .bfv3, .bfv4, .bfv5, .bfv6, .bfv7].take (s.regNat .bfn) else []

/-- The registers of the "reads" column of 10_state.md R32. -/
def readRegs (s : State) : Instr → List Reg
  | .nop => []
  | .crc8 => [.rs, .rl]
  | .crc16 => [.rs, .rl]
  | .bfpack => .bfn :: s.valueOperands ++ s.widthOperands
  | .bfunpack => .bfn :: .bfbyte :: s.widthOperands
  | .flgpack => [.prf, .rte, .ena, .cmp, .pr]
  | .flgunpack => [.flags]
  | .hdrenc => .fdl :: s.headerOperands
  | .hdrdec => [.flen]
  | .pktenc => .plen :: s.headerOperands
  | .pktdec => [.flen]
  | .clr => []

/-- `FB[0 .. min(FLEN, max(4, FB[3])))`, where FB[3] is read only when FLEN is at least 4 (41_header_codec.md R71). -/
def State.headerSpan (s : State) : Nat :=
  if 4 ≤ s.regNat .flen then min (s.regNat .flen) (max 4 (s.fbNat 3)) else s.regNat .flen

/-- The bytes a command reads, by buffer: those of offsets below `hi` and not below `lo`, as `(lo, hi)`
(10_state.md R32). PKTDEC reads the header span, and the rest of the frame once the header is good
(45_packet_codec.md R97). -/
def readSpan (s : State) : Instr → Buf → Nat × Nat
  | .crc8, .fb => (s.regNat .rs, s.regNat .rs + s.regNat .rl)
  | .crc16, .fb => (s.regNat .rs, s.regNat .rs + s.regNat .rl)
  | .hdrdec, .fb => (0, s.headerSpan)
  | .pktenc, .pb => (0, s.regNat .plen)
  | .pktdec, .fb =>
    (0, if s.headerGood then min (s.regNat .flen) s.frameNeed else s.headerSpan)
  | _, _ => (0, 0)

/-! ## Corruption -/

/-- A byte sequence with one bit of one byte inverted. -/
def flipBit (s : List Byte) (k j : Nat) : List Byte := s.set k (byteOfSeq s k ^^^ (1#8 <<< j))

/-- A header value as a decoder gives it: PRA, RCA and TTL are part of it only when RTE = 1
(41_header_codec.md R66). -/
def Header.visible (h : Header) : Header :=
  if h.rte = 1 then h else { h with pra := 0, rca := 0, ttl := 0 }

end Sys2Proof.Machine
end

