-- ==== Sys2Proof/Certificates/Slice0/Obligations.lean ====
section
/-! DEFINITION. The statements for the provers. Each docstring names the rule of spec/ it formalises. Every statement
about a next state says that the command completes, what it writes, and its frame: the registers, the bytes of both
buffers and the model's own fields that it leaves alone. The host's next accesses stand in State.pending and the answer
to the last one in State.reply: the model's own fields (notes/assumptions/3.md, 4.md). Every number that depends on a
CRC holds under the parameters of Config.hardware, which the spec itself presumes (notes/assumptions/5.md). -/

open Sys2Proof Sys2Proof.Machine

/-! ## Command words -/

/-- 30_encoding.md R53, R55: of the 2^32 words exactly the twelve of the opcode map decode, each to its command. -/
def Obligations.DecodeReadsExactlyTheTwelveWords : Prop :=
  ∀ (w : Word) (i : Instr), decode w = .ok i ↔
    (w, i) ∈ [(0x00000000#32, Instr.nop), (0x00000001#32, Instr.crc8), (0x00000002#32, Instr.crc16),
      (0x00000003#32, Instr.bfpack), (0x00000004#32, Instr.bfunpack), (0x00000005#32, Instr.flgpack),
      (0x00000006#32, Instr.flgunpack), (0x00000010#32, Instr.hdrenc), (0x00000011#32, Instr.hdrdec),
      (0x00000020#32, Instr.pktenc), (0x00000021#32, Instr.pktdec), (0x0000007F#32, Instr.clr)]

/-- 30_encoding.md R53: words written out from the opcode map decode to their commands, one of each group. -/
def Obligations.SampleWordsDecode : Prop :=
  decode 0b00000000000000000000000000000000#32 = .ok .nop ∧
    decode 0b00000000000000000000000000000001#32 = .ok .crc8 ∧
    decode 0b00000000000000000000000000000110#32 = .ok .flgunpack ∧
    decode 0b00000000000000000000000000010001#32 = .ok .hdrdec ∧
    decode 0b00000000000000000000000000100000#32 = .ok .pktenc ∧
    decode 0b00000000000000000000000001111111#32 = .ok .clr

/-- 30_encoding.md R53, 20_memory.md R40: decoding an encoded command gives it back, as a word, as the four bytes of a
byte-addressed bus, and as a row of the opcode table. -/
def Obligations.EncodedCommandsDecodeBack : Prop :=
  ∀ i : Instr, i.wellFormed = true → decode (encode i) = .ok i ∧
    decodeBytes (bytesOfWord (encode i)) = .ok i ∧ decodeTableWord 32 (encode i).toNat = some i

/-! ## A step -/

/-- 30_encoding.md R54, 20_memory.md R50: when the host's next access writes a word to CMD (bus address 0xA8) and the
word is a command's, the step is that command's meaning on the state from which the access has been taken. -/
def Obligations.StepRunsTheDecodedCommand : Prop :=
  ∀ (s : State) (w : Word) (i : Instr) (rest : List HostAccess),
    s.pending = .write .word 0x000A8 w :: rest → decode w = .ok i → i.wellFormed = true →
      step s = exec i { s with pending := rest, reply := none }

/-- 30_encoding.md R55, 60_exceptions.md R116: a CMD write of any other word completes with IllegalCommand(42, w) and
changes nothing but the report. -/
def Obligations.IllegalWordChangesOnlyTheReport : Prop :=
  ∀ (s : State) (w : Word) (rest : List HostAccess),
    s.pending = .write .word 0x000A8 w :: rest →
    w ∉ [0x00000000#32, 0x00000001#32, 0x00000002#32, 0x00000003#32, 0x00000004#32, 0x00000005#32, 0x00000006#32,
      0x00000010#32, 0x00000011#32, 0x00000020#32, 0x00000021#32, 0x0000007F#32] →
      ∃ t, step s = .next t ∧ reportsError w 8 42 w.toNat t ∧ sameRegsExcept s t reportRegs ∧
        sameBuffer .pb s t ∧ sameBuffer .fb s t ∧ t.pending = rest ∧ t.epoch = s.epoch ∧ t.reply = none

/-- 60_exceptions.md R128: with no host access pending the block holds all its state. DESIGN CHOICE of the model
(notes/assumptions/3.md): such a step exists. -/
def Obligations.IdleStepHoldsState : Prop :=
  ∀ s : State, s.pending = [] → step s = .next s

/-! ## Host accesses -/

/-- 10_state.md R17, 20_memory.md R35, R45: a word read at 4n answers register n zero-extended and changes nothing. -/
def Obligations.HostReadsARegister : Prop :=
  ∀ (s : State) (r : Reg) (rest : List HostAccess),
    s.pending = .read .word (BitVec.ofNat 18 (4 * regNum r)) :: rest →
      step s = .next { s with pending := rest, reply := some (s.reg r) }

/-- 10_state.md R17: a word write to a RW register other than CMD keeps its low W bits, and changes nothing else. -/
def Obligations.HostWriteKeepsTheLowBits : Prop :=
  ∀ (s : State) (r : Reg) (w : Word) (rest : List HostAccess),
    r ∉ [.crc8r, .crc16r, .status, .errcode, .errfield, .errofs, .phase, .cur, .cmd] →
    s.pending = .write .word (BitVec.ofNat 18 (4 * regNum r)) w :: rest →
      ∃ t, step s = .next t ∧ t.regNat r = w.toNat % 2 ^ regWidth r ∧ sameRegsExcept s t [r] ∧
        sameBuffer .pb s t ∧ sameBuffer .fb s t ∧ t.pending = rest ∧ t.epoch = s.epoch

/-- 10_state.md R17: a word write to a read-only register has no effect. -/
def Obligations.HostWriteToReadOnlyHasNoEffect : Prop :=
  ∀ (s : State) (r : Reg) (w : Word) (rest : List HostAccess),
    r ∈ [.crc8r, .crc16r, .status, .errcode, .errfield, .errofs, .phase, .cur] →
    s.pending = .write .word (BitVec.ofNat 18 (4 * regNum r)) w :: rest →
      step s = .next { s with pending := rest, reply := none }

/-- 20_memory.md R35, R42: a byte write at 0x10000 + a stores at PB offset a, at 0x20000 + a at FB offset a; every other
byte of both buffers and every register keeps its value. -/
def Obligations.HostWritesABufferByte : Prop :=
  ∀ (s : State) (a : Nat) (w : Word) (rest : List HostAccess),
    (a < 65535 → s.pending = .write .byte (BitVec.ofNat 18 (0x10000 + a)) w :: rest →
      ∃ t, step s = .next t ∧ (t.byteAt .pb a).toNat = w.toNat % 256 ∧ sameOutside .pb a (a + 1) s t ∧
        sameBuffer .fb s t ∧ sameRegsExcept s t [] ∧ t.pending = rest ∧ t.epoch = s.epoch) ∧
    (a < 65553 → s.pending = .write .byte (BitVec.ofNat 18 (0x20000 + a)) w :: rest →
      ∃ t, step s = .next t ∧ (t.byteAt .fb a).toNat = w.toNat % 256 ∧ sameOutside .fb a (a + 1) s t ∧
        sameBuffer .pb s t ∧ sameRegsExcept s t [] ∧ t.pending = rest ∧ t.epoch = s.epoch)

/-- 20_memory.md R35, R45: a byte read answers the buffer's byte and changes nothing. -/
def Obligations.HostReadsABufferByte : Prop :=
  ∀ (s : State) (a : Nat) (rest : List HostAccess),
    (a < 65535 → s.pending = .read .byte (BitVec.ofNat 18 (0x10000 + a)) :: rest →
      step s = .next { s with pending := rest, reply := some ((s.byteAt .pb a).setWidth 32) }) ∧
    (a < 65553 → s.pending = .read .byte (BitVec.ofNat 18 (0x20000 + a)) :: rest →
      step s = .next { s with pending := rest, reply := some ((s.byteAt .fb a).setWidth 32) })

/-- 20_memory.md R35 (93_implementation_defined.md I20): a read of reserved addresses returns 0, and a write there has
no effect. R35 names no size. DEDUCED by the model (notes/assumptions/6.md): this holds of a byte, a halfword or an
aligned word that covers reserved bytes alone. -/
def Obligations.ReservedAddressesReadZero : Prop :=
  ∀ (s : State) (size : AccessSize) (a : BusAddr) (w : Word) (rest : List HostAccess),
    (∀ i, i < accessBytes size → reservedAddress (a.toNat + i)) → (size = .word → a.toNat % 4 = 0) →
    (s.pending = .read size a :: rest → step s = .next { s with pending := rest, reply := some 0 }) ∧
    (s.pending = .write size a w :: rest → step s = .next { s with pending := rest, reply := none })

/-- 20_memory.md R42: an access outside the interface (an unaligned word; a byte or halfword access to the register
window; a halfword or word access to a buffer window) has no step. -/
def Obligations.AccessOutsideTheInterfaceIsRefused : Prop :=
  ∀ (s : State) (size : AccessSize) (a : BusAddr) (w : Word) (rest : List HostAccess),
    ((size = .word ∧ a.toNat % 4 ≠ 0) ∨ (size ≠ .word ∧ a.toNat < 0x000C4) ∨
      (size ≠ .byte ∧ ((0x10000 ≤ a.toNat ∧ a.toNat ≤ 0x1FFFE) ∨ (0x20000 ≤ a.toNat ∧ a.toNat ≤ 0x30010)))) →
    (s.pending = .read size a :: rest → step s = .refused (.accessOutsideInterface (.read size a))) ∧
    (s.pending = .write size a w :: rest → step s = .refused (.accessOutsideInterface (.write size a w)))

/-! ## Reset -/

/-- 10_state.md R33: after reset every register holds 0, and no buffer byte has been written. -/
def Obligations.ResetRegistersAreZero : Prop :=
  (∀ r, State.reset.reg r = 0) ∧ State.reset.pb = [] ∧ State.reset.fb = []

/-- 70_reset_and_hazards.md R129: the reset input puts every register at its reset value and leaves no written byte in
PB or FB. DESIGN CHOICE of the model (notes/assumptions/9.md): the reset input is one of the host's accesses. -/
def Obligations.ResetInputForgetsEverything : Prop :=
  ∀ (s : State) (rest : List HostAccess), s.pending = .reset :: rest →
    ∃ t, step s = .next t ∧ (∀ r, t.reg r = State.reset.reg r) ∧ t.pb = [] ∧ t.fb = [] ∧ t.pending = rest

/-- 70_reset_and_hazards.md R131: straight after reset HDRENC fails with InvalidField(0, 0) and HDRDEC with
Truncated(0x80, 4). -/
def Obligations.CommandsStraightAfterReset : Prop :=
  (∃ t, step (State.reset.withFetchWord 32 0x10) = .next t ∧ reportsError 0x10 1 0 0 t) ∧
    (∃ t, step (State.reset.withFetchWord 32 0x11) = .next t ∧ reportsError 0x11 2 0x80 4 t)

/-! ## System commands -/

/-- 46_system.md R103: NOP writes the report of a success and changes nothing else. -/
def Obligations.NopClearsTheReportOnly : Prop :=
  ∀ s : State, ∃ t, exec .nop s = .next t ∧ reportsOk 0 t ∧ sameRegsExcept s t reportRegs ∧
    sameBuffer .pb s t ∧ sameBuffer .fb s t ∧ sameHost s t

/-- 46_system.md R104, 70_reset_and_hazards.md R130: CLR puts every register at its reset value, all zero, and keeps
every byte of both buffers. -/
def Obligations.ClrResetsRegistersKeepsBuffers : Prop :=
  ∀ s : State, ∃ t, exec .clr s = .next t ∧ (∀ r, t.reg r = State.reset.reg r) ∧ (∀ r, t.reg r = 0) ∧
    sameBuffer .pb s t ∧ sameBuffer .fb s t ∧ sameHost s t

/-! ## CRC generators -/

/-- 43_crc8.md R87: CRC8 over a range inside FB writes CRC8R and nothing else; over a range that runs past the end of
FB it raises BadRange(21, RS + RL) and CRC8R keeps its value. -/
def Obligations.Crc8WritesTheChecksumOfTheRange : Prop :=
  ∀ s : State,
    (s.regNat .rs + s.regNat .rl ≤ 65553 →
      ∃ t, exec .crc8 s = .next t ∧ reportsOk 1 t ∧
        t.reg .crc8r = (crc8 Config.hardware (s.slice .fb (s.regNat .rs) (s.regNat .rl))).setWidth 32 ∧
        sameRegsExcept s t (.crc8r :: reportRegs) ∧ sameBuffer .pb s t ∧ sameBuffer .fb s t ∧ sameHost s t) ∧
    (65553 < s.regNat .rs + s.regNat .rl →
      ∃ t, exec .crc8 s = .next t ∧ reportsError 1 9 21 (s.regNat .rs + s.regNat .rl) t ∧
        sameRegsExcept s t reportRegs ∧ sameBuffer .pb s t ∧ sameBuffer .fb s t ∧ sameHost s t)

/-- 44_crc16.md R92: CRC16 over a range inside FB writes CRC16R and nothing else; over a range that runs past the end
of FB it raises BadRange(21, RS + RL) and CRC16R keeps its value. -/
def Obligations.Crc16WritesTheChecksumOfTheRange : Prop :=
  ∀ s : State,
    (s.regNat .rs + s.regNat .rl ≤ 65553 →
      ∃ t, exec .crc16 s = .next t ∧ reportsOk 2 t ∧
        t.reg .crc16r = (crc16 Config.hardware (s.slice .fb (s.regNat .rs) (s.regNat .rl))).setWidth 32 ∧
        sameRegsExcept s t (.crc16r :: reportRegs) ∧ sameBuffer .pb s t ∧ sameBuffer .fb s t ∧ sameHost s t) ∧
    (65553 < s.regNat .rs + s.regNat .rl →
      ∃ t, exec .crc16 s = .next t ∧ reportsError 2 9 21 (s.regNat .rs + s.regNat .rl) t ∧
        sameRegsExcept s t reportRegs ∧ sameBuffer .pb s t ∧ sameBuffer .fb s t ∧ sameHost s t)

/-- 43_crc8.md R84: without reflection, one byte of the loop is one look-up in T8. -/
def Obligations.Crc8ByteIsATableLookup : Prop :=
  ∀ (cfg : Config) (c b : Byte), cfg.crc8Reflect = false →
    crc8Byte cfg c b = crc8Table cfg (c ^^^ b)

/-- 44_crc16.md R89: without reflection, one byte of the loop is a shift by a byte and one look-up in T16. -/
def Obligations.Crc16ByteIsATableLookup : Prop :=
  ∀ (cfg : Config) (c : Half) (b : Byte), cfg.crc16Reflect = false →
    crc16Byte cfg c b = (c <<< 8) ^^^ crc16Table cfg ((c >>> 8).setWidth 8 ^^^ b)

/-- 43_crc8.md R85: the checksum of the empty sequence, incremental computation, detection of every single-bit
difference when CRC8_POLY has bit 0 set, and a collision of two sequences that differ in more than one bit (under the
default parameters). The first clause is for CRC8_REFLECT = false: with reflection R83 and R85 (b) differ
(notes/assumptions/15.md). -/
def Obligations.Crc8DetectsSingleBitsAndCollides : Prop :=
  (∀ cfg : Config, cfg.crc8Reflect = false → crc8 cfg [] = cfg.crc8Init ^^^ cfg.crc8Xorout) ∧
    (∀ (cfg : Config) (c : Byte) (s t : List Byte),
      crc8Loop cfg c (s ++ t) = crc8Loop cfg (crc8Loop cfg c s) t) ∧
    (∀ (cfg : Config) (s : List Byte) (k j : Nat), cfg.crc8Poly.getLsbD 0 = true → k < s.length → j < 8 →
      crc8 cfg (flipBit s k j) ≠ crc8 cfg s) ∧
    (∃ s t : List Byte, s.length = t.length ∧ s ≠ t ∧ crc8 Config.hardware s = crc8 Config.hardware t)

/-- 44_crc16.md R90: the checksum of the empty sequence, incremental computation, and detection of every change
confined to one byte when CRC16_POLY has bit 0 set. The first clause is for CRC16_REFLECT = false: with reflection R88
and R90 (b) differ (notes/assumptions/15.md). -/
def Obligations.Crc16DetectsSingleBytes : Prop :=
  (∀ cfg : Config, cfg.crc16Reflect = false → crc16 cfg [] = cfg.crc16Init ^^^ cfg.crc16Xorout) ∧
    (∀ (cfg : Config) (c : Half) (s t : List Byte),
      crc16Loop cfg c (s ++ t) = crc16Loop cfg (crc16Loop cfg c s) t) ∧
    (∀ (cfg : Config) (s : List Byte) (k : Nat) (b : Byte), cfg.crc16Poly.getLsbD 0 = true → k < s.length →
      b ≠ byteOfSeq s k → crc16 cfg (s.set k b) ≠ crc16 cfg s)

/-! ## Bit fields -/

/-- 42_bitfield.md R75, R79: BFPACK of fitting values with well-formed widths leaves in BFBYTE the byte whose field i,
at bit p_i = 8 - (w_0 + ... + w_i), is value i; nothing else changes. -/
def Obligations.BfpackPlacesEveryField : Prop :=
  ∀ s : State, s.regNat .bfn ≤ 8 → widthsWellFormed s.widths →
    (∀ i, i < s.regNat .bfn → s.values.getD i 0 < 2 ^ s.widths.getD i 0) →
      ∃ t, exec .bfpack s = .next t ∧ reportsOk 3 t ∧
        (∀ i, i < s.regNat .bfn →
          t.regNat .bfbyte / 2 ^ (8 - (s.widths.take (i + 1)).sum) % 2 ^ s.widths.getD i 0 = s.values.getD i 0) ∧
        sameRegsExcept s t (.bfbyte :: reportRegs) ∧ sameBuffer .pb s t ∧ sameBuffer .fb s t ∧ sameHost s t

/-- 42_bitfield.md R75, R79: with well-formed widths BFPACK raises BitFieldOverflow(26 + i, i) for the lowest i whose
value does not fit, and changes nothing else. -/
def Obligations.BfpackReportsTheLowestOverflow : Prop :=
  ∀ (s : State) (i : Nat), s.regNat .bfn ≤ 8 → widthsWellFormed s.widths → i < s.regNat .bfn →
    2 ^ s.widths.getD i 0 ≤ s.values.getD i 0 →
    (∀ j, j < i → s.values.getD j 0 < 2 ^ s.widths.getD j 0) →
      ∃ t, exec .bfpack s = .next t ∧ reportsError 3 6 (26 + i) i t ∧ sameRegsExcept s t reportRegs ∧
        sameBuffer .pb s t ∧ sameBuffer .fb s t ∧ sameHost s t

/-- 42_bitfield.md R74, 60_exceptions.md R115: BFPACK and BFUNPACK refuse an ill-formed width list: first the count,
then the lowest bad width, then the sum; nothing else changes. -/
def Obligations.BadWidthsAreRefusedInOrder : Prop :=
  ∀ (c : Instr) (s : State), (c = .bfpack ∨ c = .bfunpack) →
    (s.regNat .bfn = 0 ∨ 8 < s.regNat .bfn →
      ∃ t, exec c s = .next t ∧ reportsError (encode c) 7 24 (s.regNat .bfn) t ∧
        sameRegsExcept s t reportRegs ∧ sameBuffer .pb s t ∧ sameBuffer .fb s t ∧ sameHost s t) ∧
    (∀ i, i < s.regNat .bfn → s.regNat .bfn ≤ 8 → (s.widths.getD i 0 = 0 ∨ 8 < s.widths.getD i 0) →
      (∀ j, j < i → 1 ≤ s.widths.getD j 0 ∧ s.widths.getD j 0 ≤ 8) →
      ∃ t, exec c s = .next t ∧ reportsError (encode c) 7 (34 + i) (s.widths.getD i 0) t ∧
        sameRegsExcept s t reportRegs ∧ sameBuffer .pb s t ∧ sameBuffer .fb s t ∧ sameHost s t) ∧
    (1 ≤ s.regNat .bfn → s.regNat .bfn ≤ 8 → (∀ w ∈ s.widths, 1 ≤ w ∧ w ≤ 8) → s.widths.sum ≠ 8 →
      ∃ t, exec c s = .next t ∧ reportsError (encode c) 7 24 s.widths.sum t ∧
        sameRegsExcept s t reportRegs ∧ sameBuffer .pb s t ∧ sameBuffer .fb s t ∧ sameHost s t)

/-- 42_bitfield.md R76, R80: BFUNPACK with well-formed widths puts bits p_i + w_i - 1 down to p_i of BFBYTE in BFVi for
every i below BFN, 0 in the others, and changes nothing else. -/
def Obligations.BfunpackExtractsEveryField : Prop :=
  ∀ s : State, s.regNat .bfn ≤ 8 → widthsWellFormed s.widths →
    ∃ t, exec .bfunpack s = .next t ∧ reportsOk 4 t ∧
      (∀ i, i < s.regNat .bfn → t.allValues.getD i 0 =
        s.regNat .bfbyte / 2 ^ (8 - (s.widths.take (i + 1)).sum) % 2 ^ s.widths.getD i 0) ∧
      (∀ i, s.regNat .bfn ≤ i → t.allValues.getD i 0 = 0) ∧
      sameRegsExcept s t ([.bfv0, .bfv1, .bfv2, .bfv3, .bfv4, .bfv5, .bfv6, .bfv7] ++ reportRegs) ∧
      sameBuffer .pb s t ∧ sameBuffer .fb s t ∧ sameHost s t

/-- 42_bitfield.md R77: over every well-formed width list packing and unpacking are inverse. -/
def Obligations.PackAndUnpackAreInverse : Prop :=
  ∀ ws : List Nat, widthsWellFormed ws →
    (∀ b : Byte, bfPack (bfUnpack b ws) ws = .ok b) ∧
    (∀ (vs : List Nat) (b : Byte), vs.length = ws.length → bfPack vs ws = .ok b → bfUnpack b ws = vs)

/-- 42_bitfield.md R78, R81: FLGPACK packs five fields that fit, and otherwise raises BitFieldOverflow(2 + i, i) for
the first field that does not; FLAGS changes only on success. -/
def Obligations.FlgpackPacksOrReportsTheFirstOverflow : Prop :=
  ∀ s : State,
    (s.regNat .prf ≤ 3 → s.regNat .rte ≤ 1 → s.regNat .ena ≤ 3 → s.regNat .cmp ≤ 1 → s.regNat .pr ≤ 3 →
      ∃ t, exec .flgpack s = .next t ∧ reportsOk 5 t ∧ t.regNat .flags = s.flagSum ∧
        sameRegsExcept s t (.flags :: reportRegs) ∧ sameBuffer .pb s t ∧ sameBuffer .fb s t ∧ sameHost s t) ∧
    (∀ i, i < 5 →
      [3, 1, 3, 1, 3].getD i 0 <
        [s.regNat .prf, s.regNat .rte, s.regNat .ena, s.regNat .cmp, s.regNat .pr].getD i 0 →
      (∀ j, j < i → [s.regNat .prf, s.regNat .rte, s.regNat .ena, s.regNat .cmp, s.regNat .pr].getD j 0 ≤
        [3, 1, 3, 1, 3].getD j 0) →
      ∃ t, exec .flgpack s = .next t ∧ reportsError 5 6 (2 + i) i t ∧ sameRegsExcept s t reportRegs ∧
        sameBuffer .pb s t ∧ sameBuffer .fb s t ∧ sameHost s t)

/-- 42_bitfield.md R82: FLGUNPACK writes the five fields of FLAGS, zero-extended, and never fails. -/
def Obligations.FlgunpackSplitsTheFlagByte : Prop :=
  ∀ s : State, ∃ t, exec .flgunpack s = .next t ∧ reportsOk 6 t ∧
    t.regNat .prf = s.regNat .flags / 64 ∧ t.regNat .rte = s.regNat .flags / 32 % 2 ∧
    t.regNat .ena = s.regNat .flags / 8 % 4 ∧ t.regNat .cmp = s.regNat .flags / 4 % 2 ∧
    t.regNat .pr = s.regNat .flags % 4 ∧
    sameRegsExcept s t ([.prf, .rte, .ena, .cmp, .pr] ++ reportRegs) ∧ sameBuffer .pb s t ∧ sameBuffer .fb s t ∧
    sameHost s t

/-- 42_bitfield.md R77, R78: FLGUNPACK then FLGPACK gives FLAGS back, and FLGPACK then FLGUNPACK gives the five
operands back when they fit: the flag byte has no unused bit. -/
def Obligations.FlagCommandsAreInverse : Prop :=
  ∀ s t u : State,
    (exec .flgunpack s = .next t → exec .flgpack t = .next u →
      reportsOk 5 u ∧ u.reg .flags = s.reg .flags) ∧
    (exec .flgpack s = .next t → t.reg .errcode = 0 → exec .flgunpack t = .next u →
      u.reg .prf = s.reg .prf ∧ u.reg .rte = s.reg .rte ∧ u.reg .ena = s.reg .ena ∧ u.reg .cmp = s.reg .cmp ∧
        u.reg .pr = s.reg .pr)

/-! ## Header codec -/

/-- 41_header_codec.md R68, R69, 30_encoding.md R56, R57: HDRENC of encodable operands writes the header at FB offsets 0
to HL - 1, byte by byte as the wire format has it, with FDL as it stands, and FLEN, FLAGS, HCS; nothing else
changes. -/
def Obligations.HdrencWritesTheWireFormat : Prop :=
  ∀ s : State, s.encodable →
    ∃ t, exec .hdrenc s = .next t ∧ reportsOk 0x10 t ∧ headerAt s t (s.regNat .fdl) (s.regNat .hl) ∧
      t.regNat .flen = s.regNat .hl ∧ t.regNat .flags = s.flagSum ∧
      t.regNat .hcs = t.fbNat (s.regNat .hl - 1) ∧
      sameRegsExcept s t ([.flen, .flags, .hcs] ++ reportRegs) ∧ sameOutside .fb 0 (s.regNat .hl) s t ∧
      sameBuffer .pb s t ∧ sameHost s t

/-- 41_header_codec.md R67, 60_exceptions.md R109, R119: HDRENC and PKTENC test PRF, RTE, ENA, CMP, PR for width, then
PRV, then PRF for 0, then HL; the first failing check is reported as InvalidField and nothing else changes. -/
def Obligations.EncodersReportTheFirstFailingCheck : Prop :=
  ∀ (c : Instr) (s : State), (c = .hdrenc ∨ c = .pktenc) →
    ∀ field ofs : Nat,
      (3 < s.regNat .prf ∧ field = 2 ∧ ofs = 2) ∨
      (s.regNat .prf ≤ 3 ∧ 1 < s.regNat .rte ∧ field = 3 ∧ ofs = 2) ∨
      (s.regNat .prf ≤ 3 ∧ s.regNat .rte ≤ 1 ∧ 3 < s.regNat .ena ∧ field = 4 ∧ ofs = 2) ∨
      (s.regNat .prf ≤ 3 ∧ s.regNat .rte ≤ 1 ∧ s.regNat .ena ≤ 3 ∧ 1 < s.regNat .cmp ∧ field = 5 ∧ ofs = 2) ∨
      (s.regNat .prf ≤ 3 ∧ s.regNat .rte ≤ 1 ∧ s.regNat .ena ≤ 3 ∧ s.regNat .cmp ≤ 1 ∧ 3 < s.regNat .pr ∧
        field = 6 ∧ ofs = 2) ∨
      (s.regNat .prf ≤ 3 ∧ s.regNat .rte ≤ 1 ∧ s.regNat .ena ≤ 3 ∧ s.regNat .cmp ≤ 1 ∧ s.regNat .pr ≤ 3 ∧
        s.regNat .prv ≠ 1 ∧ field = 0 ∧ ofs = 0) ∨
      (s.regNat .prf ≤ 3 ∧ s.regNat .rte ≤ 1 ∧ s.regNat .ena ≤ 3 ∧ s.regNat .cmp ≤ 1 ∧ s.regNat .pr ≤ 3 ∧
        s.regNat .prv = 1 ∧ s.regNat .prf ≠ 0 ∧ field = 2 ∧ ofs = 2) ∨
      (s.regNat .prf = 0 ∧ s.regNat .rte ≤ 1 ∧ s.regNat .ena ≤ 3 ∧ s.regNat .cmp ≤ 1 ∧ s.regNat .pr ≤ 3 ∧
        s.regNat .prv = 1 ∧ s.regNat .hl ≠ 11 + 5 * s.regNat .rte ∧ field = 7 ∧ ofs = 3) →
      ∃ t, exec c s = .next t ∧ reportsError (encode c) 1 field ofs t ∧ sameRegsExcept s t reportRegs ∧
        sameBuffer .pb s t ∧ sameBuffer .fb s t ∧ sameHost s t

/-- 41_header_codec.md R70, R71: HDRDEC of a decodable header loads registers 0 to 15 and 17 from FB (0 in PRA, RCA, TTL
when RTE = 0), ends in HeaderParsed with CUR = HL, and changes nothing else. -/
def Obligations.HdrdecLoadsTheHeader : Prop :=
  ∀ s : State, s.headerGood →
    ∃ t, exec .hdrdec s = .next t ∧ reportsOk 0x11 t ∧ headerLoaded s t ∧ t.regNat .phase = 1 ∧
      t.regNat .cur = s.fbNat 3 ∧ sameRegsExcept s t (loadedRegs ++ [.phase, .cur] ++ reportRegs) ∧
      sameBuffer .pb s t ∧ sameBuffer .fb s t ∧ sameHost s t

/-- 41_header_codec.md R70, R71, 60_exceptions.md R119: HDRDEC and PKTDEC report the first failing step, FLEN first;
PHASE is then Start, CUR 0, and nothing else changes. -/
def Obligations.DecodersReportTheFirstFailingStep : Prop :=
  ∀ (c : Instr) (s : State), (c = .hdrdec ∨ c = .pktdec) →
    ∀ code field ofs : Nat,
      (65553 < s.regNat .flen ∧ code = 9 ∧ field = 19 ∧ ofs = s.regNat .flen) ∨
      (s.regNat .flen < 4 ∧ code = 2 ∧ field = 0x80 ∧ ofs = 4) ∨
      (4 ≤ s.regNat .flen ∧ s.regNat .flen ≤ 65553 ∧ s.fbNat 3 = 0 ∧ code = 3 ∧ field = 7 ∧ ofs = 3) ∨
      (4 ≤ s.regNat .flen ∧ s.regNat .flen ≤ 65553 ∧ s.regNat .flen < s.fbNat 3 ∧ code = 2 ∧ field = 0x80 ∧
        ofs = s.fbNat 3) ∨
      (s.spanThere ∧ ¬s.headerChecksumGood ∧ code = 3 ∧ field = 15 ∧ ofs = s.fbNat 3 - 1) ∨
      (s.spanThere ∧ s.headerChecksumGood ∧ s.fbNat 0 ≠ 1 ∧ code = 5 ∧ field = 0 ∧ ofs = 0) ∨
      (s.spanThere ∧ s.headerChecksumGood ∧ s.fbNat 0 = 1 ∧ s.fbNat 2 / 64 ≠ 0 ∧ code = 5 ∧ field = 2 ∧ ofs = 2) ∨
      (s.spanThere ∧ s.headerChecksumGood ∧ s.versionGood ∧ ¬s.lengthGood ∧ code = 1 ∧ field = 7 ∧ ofs = 3) →
      ∃ t, exec c s = .next t ∧ reportsError (encode c) code field ofs t ∧ t.regNat .phase = 0 ∧ t.regNat .cur = 0 ∧
        sameRegsExcept s t ([.phase, .cur] ++ reportRegs) ∧ sameBuffer .pb s t ∧ sameBuffer .fb s t ∧ sameHost s t

/-- 41_header_codec.md R72: header round trip, on values for every legal configuration and in registers. -/
def Obligations.HeaderRoundTrip : Prop :=
  (∀ (cfg : Config) (h : Header) (b t : List Byte), cfg.legal → hdrEnc cfg h = .ok b →
    hdrDec cfg (b ++ t) =
      .ok { header := h.visible, hcs := byteOfSeq b (b.length - 1), consumed := b.length }) ∧
  (∀ s t : State, exec .hdrenc s = .next t → t.reg .errcode = 0 →
    ∃ u, exec .hdrdec t = .next u ∧ reportsOk 0x11 u ∧
      (∀ r ∈ [Reg.prv, .skid, .prf, .rte, .ena, .cmp, .pr, .hl, .he, .fdl, .pid, .pt, .hcs, .flags],
        u.reg r = t.reg r) ∧
      (∀ r ∈ [Reg.pra, .rca, .ttl], u.reg r = if t.reg .rte = 1 then t.reg r else 0))

/-- 41_header_codec.md R73: a decoded header is encodable, and encoding it gives the header span back: decoding loses
no bit. -/
def Obligations.DecodedHeaderEncodesBack : Prop :=
  ∀ (cfg : Config) (b : List Byte) (d : HeaderDecoded), cfg.legal → hdrDec cfg b = .ok d →
    encodeError cfg d.header = none ∧ hdrEnc cfg d.header = .ok (b.take d.consumed)

/-! ## Packet codec -/

/-- 45_packet_codec.md R94, R95, 30_encoding.md R59: PKTENC of encodable operands writes the header with FDL = PLEN, the
PLEN bytes of PB, and, only when PLEN is not 0, SFRCS low byte first; FDL, SFRCS, FLAGS, HCS and FLEN follow; nothing
else changes. -/
def Obligations.PktencWritesTheFrame : Prop :=
  ∀ s : State, s.encodable →
    ∃ t, exec .pktenc s = .next t ∧ reportsOk 0x20 t ∧ headerAt s t (s.regNat .plen) (s.regNat .hl) ∧
      (∀ i, i < s.regNat .plen → t.byteAt .fb (s.regNat .hl + i) = s.byteAt .pb i) ∧
      (0 < s.regNat .plen →
        t.regNat .sfrcs = (crc16 Config.hardware (s.slice .pb 0 (s.regNat .plen))).toNat ∧
        t.fbHalf (s.regNat .hl + s.regNat .plen) = t.regNat .sfrcs ∧
        t.regNat .flen = s.regNat .hl + s.regNat .plen + 2) ∧
      (s.regNat .plen = 0 → t.regNat .sfrcs = 0 ∧ t.regNat .flen = s.regNat .hl) ∧
      t.regNat .fdl = s.regNat .plen ∧ t.regNat .flags = s.flagSum ∧
      t.regNat .hcs = t.fbNat (s.regNat .hl - 1) ∧
      sameRegsExcept s t ([.fdl, .flags, .hcs, .sfrcs, .flen] ++ reportRegs) ∧
      sameOutside .fb 0 (t.regNat .flen) s t ∧ sameBuffer .pb s t ∧ sameHost s t

/-- 45_packet_codec.md R94: PKTENC refines the pure `pkt_enc`: it fails with its error, or FB holds its bytes. -/
def Obligations.PktencRefinesPktEnc : Prop :=
  ∀ s : State, ∃ t, exec .pktenc s = .next t ∧
    (∀ e, pktEnc Config.hardware s.header s.payload = .error e →
      reportsError 0x20 e.code.num.toNat e.field e.ofs t) ∧
    (∀ b, pktEnc Config.hardware s.header s.payload = .ok b →
      reportsOk 0x20 t ∧ t.frame = b ∧ b.length = frameLen (s.regNat .hl) (s.regNat .plen))

/-- 45_packet_codec.md R96, R97: PKTDEC of a whole, intact frame loads the header, copies the payload to PB, sets PLEN
and SFRCS (0 when FDL = 0), and ends in ChecksumValidated with CUR the frame length; nothing else changes. -/
def Obligations.PktdecDecodesAFrame : Prop :=
  ∀ s : State, s.headerGood → s.frameNeed ≤ s.regNat .flen →
    (0 < s.fbHalf 5 →
      (crc16 Config.hardware (s.slice .fb (s.fbNat 3) (s.fbHalf 5))).toNat = s.fbHalf s.payloadEnd) →
    ∃ t, exec .pktdec s = .next t ∧ reportsOk 0x21 t ∧ headerLoaded s t ∧ t.regNat .phase = 3 ∧
      t.regNat .cur = s.frameNeed ∧ t.regNat .plen = s.fbHalf 5 ∧
      t.regNat .sfrcs = (if 0 < s.fbHalf 5 then s.fbHalf s.payloadEnd else 0) ∧
      (∀ i, i < s.fbHalf 5 → t.byteAt .pb i = s.byteAt .fb (s.fbNat 3 + i)) ∧
      sameOutside .pb 0 (s.fbHalf 5) s t ∧
      sameRegsExcept s t (loadedRegs ++ [.sfrcs, .plen, .phase, .cur] ++ reportRegs) ∧ sameBuffer .fb s t ∧
      sameHost s t

/-- 45_packet_codec.md R96, R98, 60_exceptions.md R110: PKTDEC of a good header in too short a buffer raises Truncated
with the bytes needed, field 0x81 for the payload and 16 for SFRCS; the header stays loaded, PHASE is HeaderParsed,
CUR the header length; SFRCS, PLEN and PB keep their values. -/
def Obligations.PktdecTruncatedKeepsTheHeader : Prop :=
  ∀ s : State, s.headerGood → s.regNat .flen < s.frameNeed →
    ∃ t, exec .pktdec s = .next t ∧
      reportsError 0x21 2 (if s.regNat .flen < s.payloadEnd then 0x81 else 16) s.frameNeed t ∧ headerLoaded s t ∧
      t.regNat .phase = 1 ∧ t.regNat .cur = s.fbNat 3 ∧
      sameRegsExcept s t (loadedRegs ++ [.phase, .cur] ++ reportRegs) ∧ sameBuffer .pb s t ∧ sameBuffer .fb s t ∧
      sameHost s t

/-- 45_packet_codec.md R96, R98, 60_exceptions.md R112: PKTDEC of a whole frame whose payload and SFRCS disagree raises
PayloadChecksumMismatch(16, HL + FDL) in ChecksumFailed; the header, the payload and the received SFRCS stay
loaded. -/
def Obligations.PktdecMismatchKeepsWhatWasReceived : Prop :=
  ∀ s : State, s.headerGood → s.frameNeed ≤ s.regNat .flen → 0 < s.fbHalf 5 →
    (crc16 Config.hardware (s.slice .fb (s.fbNat 3) (s.fbHalf 5))).toNat ≠ s.fbHalf s.payloadEnd →
    ∃ t, exec .pktdec s = .next t ∧ reportsError 0x21 4 16 s.payloadEnd t ∧ headerLoaded s t ∧
      t.regNat .phase = 4 ∧ t.regNat .cur = s.frameNeed ∧ t.regNat .plen = s.fbHalf 5 ∧
      t.regNat .sfrcs = s.fbHalf s.payloadEnd ∧
      (∀ i, i < s.fbHalf 5 → t.byteAt .pb i = s.byteAt .fb (s.fbNat 3 + i)) ∧
      sameOutside .pb 0 (s.fbHalf 5) s t ∧
      sameRegsExcept s t (loadedRegs ++ [.sfrcs, .plen, .phase, .cur] ++ reportRegs) ∧ sameBuffer .fb s t ∧
      sameHost s t

/-- 45_packet_codec.md R96, R99: PKTDEC refines the pure `pkt_dec`: the same error or success, and PHASE is the phase in
which `pkt_dec` ends. -/
def Obligations.PktdecRefinesPktDec : Prop :=
  ∀ s : State, s.regNat .flen ≤ 65553 → ∃ t, exec .pktdec s = .next t ∧
    t.ctl.phase = (pktDecPhase Config.hardware s.frame).num ∧
    (∀ e, pktDec Config.hardware s.frame = .error e → reportsError 0x21 e.code.num.toNat e.field e.ofs t) ∧
    (∀ d, pktDec Config.hardware s.frame = .ok d →
      reportsOk 0x21 t ∧ t.header = d.header ∧ t.hdr.hcs = d.hcs ∧ t.payload = d.payload ∧
        t.regNat .cur = d.consumed)

/-- 45_packet_codec.md R100: packet round trip, on values for every legal configuration and in registers. -/
def Obligations.PacketRoundTrip : Prop :=
  (∀ (cfg : Config) (h : Header) (p b t : List Byte), cfg.legal → p.length ≤ 65535 → pktEnc cfg h p = .ok b →
    ∃ d, pktDec cfg (b ++ t) = .ok d ∧ d.header = (h.withLength p.length).visible ∧ d.payload = p ∧
      d.consumed = b.length ∧ pktDecPhase cfg (b ++ t) = .checksumValidated) ∧
  (∀ s t : State, exec .pktenc s = .next t → t.reg .errcode = 0 →
    ∃ u, exec .pktdec t = .next u ∧ reportsOk 0x21 u ∧
      (∀ r ∈ [Reg.prv, .skid, .prf, .rte, .ena, .cmp, .pr, .hl, .he, .fdl, .pid, .pt, .hcs, .sfrcs, .flags, .plen],
        u.reg r = t.reg r) ∧
      (∀ r ∈ [Reg.pra, .rca, .ttl], u.reg r = if t.reg .rte = 1 then t.reg r else 0) ∧
      sameBuffer .pb t u ∧ u.regNat .phase = 3 ∧ u.regNat .cur = t.regNat .flen)

/-- 45_packet_codec.md R101: the frame length law of both packet commands. -/
def Obligations.FrameLengthLaw : Prop :=
  ∀ s t : State,
    (exec .pktenc s = .next t → t.reg .errcode = 0 →
      t.regNat .flen = t.regNat .hl + t.regNat .plen + (if 0 < t.regNat .plen then 2 else 0)) ∧
    (exec .pktdec s = .next t → t.reg .errcode = 0 →
      t.regNat .cur = t.regNat .hl + t.regNat .fdl + (if 0 < t.regNat .fdl then 2 else 0))

/-- 45_packet_codec.md R102: for a frame that `pkt_enc` made, under any legal configuration whose two polynomials have
bit 0 set: (a) a flipped bit of the header before HCS, HL apart, (c) of HCS gives ChecksumMismatch; (b) a flipped bit of
HL never succeeds and gives ChecksumMismatch, or Truncated when the changed HL exceeds the bytes available, or
InvalidField when the CRC-8 collides; (d) a changed payload byte or a flipped bit of SFRCS gives
PayloadChecksumMismatch. -/
def Obligations.CorruptionIsDetected : Prop :=
  ∀ (cfg : Config) (h : Header) (p b : List Byte), cfg.legal → cfg.crc8Poly.getLsbD 0 = true →
    cfg.crc16Poly.getLsbD 0 = true → p.length ≤ 65535 → pktEnc cfg h p = .ok b →
    (∀ k j, k < h.hl.toNat - 1 → k ≠ 3 → j < 8 →
      pktDec cfg (flipBit b k j) = .error ⟨.checksumMismatch, 15, h.hl.toNat - 1⟩) ∧
    (∀ j, j < 8 → ∃ e, pktDec cfg (flipBit b 3 j) = .error e ∧
      (e.code = .checksumMismatch ∨
        (e.code = .truncated ∧ b.length < (byteOfSeq (flipBit b 3 j) 3).toNat) ∨
        (e = ⟨.invalidField, 7, 3⟩ ∧
          crc8 cfg ((flipBit b 3 j).take ((byteOfSeq (flipBit b 3 j) 3).toNat - 1)) =
            byteOfSeq (flipBit b 3 j) ((byteOfSeq (flipBit b 3 j) 3).toNat - 1)))) ∧
    (∀ j, j < 8 → pktDec cfg (flipBit b (h.hl.toNat - 1) j) =
      .error ⟨.checksumMismatch, 15, h.hl.toNat - 1⟩) ∧
    (∀ k v, k < p.length → v ≠ byteOfSeq p k → pktDec cfg (b.set (h.hl.toNat + k) v) =
      .error ⟨.payloadChecksumMismatch, 16, h.hl.toNat + p.length⟩) ∧
    (∀ k j, 0 < p.length → k < 2 → j < 8 → pktDec cfg (flipBit b (h.hl.toNat + p.length + k) j) =
      .error ⟨.payloadChecksumMismatch, 16, h.hl.toNat + p.length⟩)

/-- 60_exceptions.md R117, 45_packet_codec.md R95, R97, R98: under a configuration with smaller buffers PKTENC raises
BadRange(18, PLEN) and then BadRange(19, frame length) before anything is written, and PKTDEC raises BadRange(18, FDL)
with the header loaded, FLAGS the flag byte of the frame, PHASE HeaderParsed and CUR the header length. -/
def Obligations.SmallerBuffersRaiseBadRange : Prop :=
  ∀ (cfg : Config) (s : State),
    (cfg.pbSize < s.regNat .plen → pktencCommand cfg s = (s, some ⟨.badRange, 18, s.regNat .plen⟩)) ∧
    (∀ b, s.regNat .plen ≤ cfg.pbSize → pktEnc cfg s.header s.payload = .ok b → cfg.fbSize < b.length →
      pktencCommand cfg s = (s, some ⟨.badRange, 19, b.length⟩)) ∧
    (∀ d, s.regNat .flen ≤ cfg.fbSize → hdrDec cfg s.frame = .ok d → cfg.pbSize < d.header.fdl.toNat →
      ∃ t, pktdecCommand cfg s = (t, some ⟨.badRange, 18, d.header.fdl.toNat⟩) ∧ t.header = d.header ∧
        t.hdr.hcs = d.hcs ∧ t.hdr.flags = s.byteAt .fb 2 ∧ t.ctl.phase = 1 ∧ t.ctl.cur.toNat = d.consumed ∧
        t.hdr.sfrcs = s.hdr.sfrcs ∧ t.rng = s.rng ∧ t.pb = s.pb ∧ t.fb = s.fb)

/-! ## The whole machine -/

/-- 30_encoding.md R54, 60_exceptions.md R106, 10_state.md R25: every command completes, in every state; BUSY is then 0,
CMD holds the command word, DONE is 1 and ERR says whether ERRCODE is not 0. CLR alone ends with the reset values. -/
def Obligations.EveryCommandCompletes : Prop :=
  ∀ (i : Instr) (s : State), ∃ t, exec i s = .next t ∧ t.busy = false ∧
    (t.err = true ↔ t.reg .errcode ≠ 0) ∧ (t.regNat .errcode ≤ 9) ∧
    (i ≠ .clr → t.done = true ∧ t.reg .cmd = encode i) ∧ (i = .clr → t.done = false ∧ t.reg .cmd = 0)

/-- 10_state.md R32: a command writes no register but those of its row of the table and the report, and no buffer byte
but `FB[0 .. HL)` in HDRENC, `FB[0 .. FLEN')` in PKTENC and `PB[0 .. FDL)` in PKTDEC; on failure, PKTDEC apart, only
the report, and HDRDEC PHASE and CUR. -/
def Obligations.CommandsWriteOnlyTheirTable : Prop :=
  ∀ (i : Instr) (s t : State), exec i s = .next t →
    sameRegsExcept s t (writtenRegs i ++ reportRegs) ∧ sameHost s t ∧
    (i ≠ .pktdec → sameBuffer .pb s t) ∧ (i = .pktdec → sameOutside .pb 0 (t.regNat .fdl) s t) ∧
    (i ≠ .hdrenc → i ≠ .pktenc → sameBuffer .fb s t) ∧
    (i = .hdrenc → sameOutside .fb 0 (t.regNat .hl) s t) ∧ (i = .pktenc → sameOutside .fb 0 (t.regNat .flen) s t) ∧
    (t.reg .errcode ≠ 0 → i ≠ .pktdec →
      sameRegsExcept s t ((if i = .hdrdec then [.phase, .cur] else []) ++ reportRegs) ∧ sameBuffer .pb s t ∧
        sameBuffer .fb s t)

/-- 10_state.md R32: no hidden state survives a command: from two states that agree on the registers and buffer bytes a
command reads, each register and byte ends equal in both or keeps its value in both, and the report is the same. -/
def Obligations.ResultsDependOnlyOnWhatIsRead : Prop :=
  ∀ (i : Instr) (s₁ s₂ t₁ t₂ : State),
    (∀ r ∈ readRegs s₁ i, s₁.reg r = s₂.reg r) →
    (∀ buf a, (readSpan s₁ i buf).1 ≤ a → a < (readSpan s₁ i buf).2 → s₁.byteAt buf a = s₂.byteAt buf a) →
    exec i s₁ = .next t₁ → exec i s₂ = .next t₂ →
      (∀ r ∈ reportRegs, t₁.reg r = t₂.reg r) ∧
      (∀ r, t₁.reg r = t₂.reg r ∨ (t₁.reg r = s₁.reg r ∧ t₂.reg r = s₂.reg r)) ∧
      (∀ buf a, t₁.byteAt buf a = t₂.byteAt buf a ∨
        (t₁.byteAt buf a = s₁.byteAt buf a ∧ t₂.byteAt buf a = s₂.byteAt buf a))

/-- 20_memory.md R45: every command is idempotent: a second execution with no host write between leaves the same
state. For buffer bytes that nothing has written this rests on the model's choice that such a byte keeps its value
(notes/assumptions/1.md). The premise is the canonical form, which every step keeps (EveryStepKeepsTheInvariant). -/
def Obligations.EveryCommandIsIdempotent : Prop :=
  ∀ (i : Instr) (s t : State), s.pb.wf → s.fb.wf → exec i s = .next t → exec i t = .next t

/-- 70_reset_and_hazards.md R136: the PID successor wraps from 65535 to 0, and no command changes PID but the decoders,
which load it from the frame, and CLR. -/
def Obligations.PidIsTheSendersCounter : Prop :=
  (∀ p : Half, (pidNext p).toNat = (p.toNat + 1) % 65536) ∧ pidNext 65535 = 0 ∧
    (∀ (i : Instr) (s t : State), i ≠ .hdrdec → i ≠ .pktdec → i ≠ .clr → exec i s = .next t →
      t.reg .pid = s.reg .pid) ∧
    (∀ (i : Instr) (s t : State), i = .hdrdec ∨ i = .pktdec → exec i s = .next t → t.reg .phase ≠ 0 →
      t.regNat .pid = s.fbHalf 7)

/-- 00_scope.md R8: the block interprets no payload byte: changing ENA and CMP to other encodable values changes
neither the payload bytes PKTENC writes after the header nor the SFRCS. -/
def Obligations.PayloadIsOpaque : Prop :=
  ∀ (s t u : State) (ena cmp : Byte), s.encodable → ena.toNat ≤ 3 → cmp.toNat ≤ 1 →
    exec .pktenc s = .next t →
    exec .pktenc { s with hdr := { s.hdr with ena := ena, cmp := cmp } } = .next u →
      t.reg .sfrcs = u.reg .sfrcs ∧ t.reg .flen = u.reg .flen ∧
        ∀ a, s.regNat .hl ≤ a → t.byteAt .fb a = u.byteAt .fb a

/-- 93_implementation_defined.md I24, 10_state.md R27, R28, R29: the invariant holds right after reset. -/
def Obligations.InvariantHoldsAtReset : Prop := State.reset.Inv

/-- 93_implementation_defined.md I24, 10_state.md R25, R27, R28, R29, 60_exceptions.md R107, R108: every step keeps the
invariant: buffers canonical and inside their sizes, BUSY 0, ERR exactly with an error code, no code, field or phase
that is never produced, and a cursor inside the frame buffer. -/
def Obligations.EveryStepKeepsTheInvariant : Prop :=
  ∀ s t : State, s.Inv → step s = .next t → t.Inv

/-- 60_exceptions.md R106, 20_memory.md R42: a host script whose accesses all belong to the interface runs for ever:
no number of steps ends in a fault or a refusal. -/
def Obligations.WellFormedScriptsRunForEver : Prop :=
  ∀ s : State, s.scriptWellFormed → SafeRun s
end

