-- ==== Sys2Proof/Laws/BitField.lean ====
section
/-! SUPPORT. The bit-field utility: what the tests of a width list and of the values find, and that packing and
unpacking are inverse because the fields tile the byte (42_bitfield.md R74 to R78). -/

namespace Sys2Proof.Machine

/-! ## The tests -/

theorem firstBadWidth_eq_none {k : Nat} {ws : List Nat} :
    firstBadWidth k ws = none ↔ ∀ w ∈ ws, 1 ≤ w ∧ w ≤ 8 := by
  induction ws generalizing k with
  | nil => simp [firstBadWidth]
  | cons w ws ih =>
    simp only [firstBadWidth, List.forall_mem_cons]
    split
    · simp; omega
    · rw [ih]; simp only [iff_and_self]; intro _; omega

/-- The lowest bad width is the one found. -/
theorem firstBadWidth_eq_some {k i : Nat} {ws : List Nat} (hi : i < ws.length)
    (hbad : ws.getD i 0 = 0 ∨ 8 < ws.getD i 0) (hlow : ∀ j, j < i → 1 ≤ ws.getD j 0 ∧ ws.getD j 0 ≤ 8) :
    firstBadWidth k ws = some (k + i, ws.getD i 0) := by
  induction ws generalizing k i with
  | nil => simp at hi
  | cons w ws ih =>
    cases i with
    | zero => simp only [List.getD_cons_zero] at hbad; simp [firstBadWidth, hbad]
    | succ i =>
      have h0 := hlow 0 (by omega)
      simp only [List.getD_cons_zero] at h0
      simp only [firstBadWidth, List.getD_cons_succ]
      rw [if_neg (by omega), ih (by simpa using hi) (by simpa using hbad)
        fun j hj => by simpa using hlow (j + 1) (by omega)]
      simp only [Option.some.injEq, Prod.mk.injEq, and_true]
      omega

theorem firstOverflow_eq_none {k : Nat} {vs ws : List Nat} (hl : vs.length = ws.length) :
    firstOverflow k vs ws = none ↔ ∀ i, i < ws.length → vs.getD i 0 < 2 ^ ws.getD i 0 := by
  induction ws generalizing k vs with
  | nil => cases vs <;> simp [firstOverflow]
  | cons w ws ih =>
    cases vs with
    | nil => simp at hl
    | cons v vs =>
      simp only [firstOverflow]
      split
      · next h =>
        simp only [reduceCtorEq, false_iff, not_forall]
        exact ⟨0, by simp, by simpa using h⟩
      · next h =>
        rw [ih (by simpa using hl)]
        constructor
        · intro hr i hi
          cases i with
          | zero => simpa using h
          | succ i => simpa using hr i (by simpa using hi)
        · intro hr i hi
          simpa using hr (i + 1) (by simpa using hi)

/-- The lowest value that does not fit is the one found. -/
theorem firstOverflow_eq_some {k i : Nat} {vs ws : List Nat} (hl : vs.length = ws.length) (hi : i < ws.length)
    (hbad : 2 ^ ws.getD i 0 ≤ vs.getD i 0) (hlow : ∀ j, j < i → vs.getD j 0 < 2 ^ ws.getD j 0) :
    firstOverflow k vs ws = some (k + i) := by
  induction ws generalizing k i vs with
  | nil => simp at hi
  | cons w ws ih =>
    cases vs with
    | nil => simp at hl
    | cons v vs =>
      cases i with
      | zero => simp only [List.getD_cons_zero] at hbad; simp [firstOverflow, hbad]
      | succ i =>
        have h0 := hlow 0 (by omega)
        simp only [List.getD_cons_zero] at h0
        simp only [firstOverflow]
        rw [if_neg (by omega), ih (by simpa using hl) (by simpa using hi) (by simpa using hbad)
          fun j hj => by simpa using hlow (j + 1) (by omega)]
        congr 1; omega

theorem bfPack_inv {vs ws : List Nat} {b : Byte} (h : bfPack vs ws = .ok b) : firstOverflow 0 vs ws = none := by
  simp only [bfPack] at h
  split at h
  · simp at h
  · assumption

theorem bfPack_ok {vs ws : List Nat} (h : firstOverflow 0 vs ws = none) :
    bfPack vs ws = .ok (byteOf (packBelow 8 vs ws)) := by
  simp [bfPack, h]

theorem bfPack_error {vs ws : List Nat} {i : Nat} (h : firstOverflow 0 vs ws = some i) :
    bfPack vs ws = .error ⟨.bitFieldOverflow, 26 + i, i⟩ := by
  simp [bfPack, h, regNum]

theorem bfCheck_ok {n : Nat} {ws : List Nat} (hn : n ≤ 8) (hn0 : n ≠ 0) (hw : ∀ w ∈ ws, 1 ≤ w ∧ w ≤ 8)
    (hs : ws.sum = 8) : bfCheck n ws = .ok () := by
  simp only [bfCheck]
  rw [if_neg (by omega), firstBadWidth_eq_none.2 hw]
  simp [hs]

/-- A width list that passes the test is well formed. -/
theorem bfCheck_inv {n : Nat} {ws : List Nat} {u : Unit} (h : bfCheck n ws = .ok u) :
    1 ≤ n ∧ n ≤ 8 ∧ (∀ w ∈ ws, 1 ≤ w ∧ w ≤ 8) ∧ ws.sum = 8 := by
  simp only [bfCheck] at h
  split at h
  · simp at h
  · next hn =>
    split at h
    · simp at h
    · next hb =>
      split at h
      · simp at h
      · next hs => exact ⟨by omega, by omega, firstBadWidth_eq_none.1 hb, by simpa using hs⟩

/-! ## Fields tile the byte -/

/-- The packed fields fill exactly the bits below `p`. -/
theorem packBelow_lt {p : Nat} {vs ws : List Nat} (hl : vs.length = ws.length) (hs : ws.sum = p)
    (hf : ∀ i, i < ws.length → vs.getD i 0 < 2 ^ ws.getD i 0) : packBelow p vs ws < 2 ^ p := by
  induction ws generalizing p vs with
  | nil => cases vs <;> simp [packBelow]
  | cons w ws ih =>
    cases vs with
    | nil => simp at hl
    | cons v vs =>
      have hv : v < 2 ^ w := by simpa using hf 0 (by simp)
      simp only [List.sum_cons] at hs
      have hr := ih (p := p - w) (vs := vs) (by simpa using hl) (by omega)
        fun i hi => by simpa using hf (i + 1) (by simpa using hi)
      simp only [packBelow]
      have hp : 2 ^ p = 2 ^ w * 2 ^ (p - w) := by rw [← Nat.pow_add]; congr 1; omega
      rw [hp]
      calc v * 2 ^ (p - w) + packBelow (p - w) vs ws < v * 2 ^ (p - w) + 2 ^ (p - w) := by omega
        _ = (v + 1) * 2 ^ (p - w) := by ring
        _ ≤ 2 ^ w * 2 ^ (p - w) := Nat.mul_le_mul_right _ hv

/-- Unpacking what was packed gives the values back, whatever stands above the fields. -/
theorem unpackBelow_packBelow {p : Nat} {vs ws : List Nat} (hl : vs.length = ws.length) (hs : ws.sum = p)
    (hf : ∀ i, i < ws.length → vs.getD i 0 < 2 ^ ws.getD i 0) (x : Nat) :
    unpackBelow (x * 2 ^ p + packBelow p vs ws) p ws = vs := by
  induction ws generalizing p vs x with
  | nil =>
    cases vs with
    | nil => rfl
    | cons v vs => simp at hl
  | cons w ws ih =>
    cases vs with
    | nil => simp at hl
    | cons v vs =>
      have hv : v < 2 ^ w := by simpa using hf 0 (by simp)
      simp only [List.sum_cons] at hs
      have hl' : vs.length = ws.length := by simpa using hl
      have hf' : ∀ i, i < ws.length → vs.getD i 0 < 2 ^ ws.getD i 0 :=
        fun i hi => by simpa using hf (i + 1) (by simpa using hi)
      have hlt := packBelow_lt hl' (p := p - w) (by omega) hf'
      have hp : 2 ^ p = 2 ^ w * 2 ^ (p - w) := by rw [← Nat.pow_add]; congr 1; omega
      have e : x * 2 ^ p + packBelow p (v :: vs) (w :: ws) =
          (x * 2 ^ w + v) * 2 ^ (p - w) + packBelow (p - w) vs ws := by
        simp only [packBelow, hp]; ring
      rw [e]
      simp only [unpackBelow, List.cons.injEq]
      refine ⟨?_, ih hl' (by omega) hf' _⟩
      rw [Nat.shiftRight_eq_div_pow, Nat.mul_comm, Nat.mul_add_div (Nat.two_pow_pos _), Nat.div_eq_of_lt hlt,
        Nat.add_zero, Nat.mul_comm, Nat.mul_add_mod, Nat.mod_eq_of_lt hv]

/-- Packing what was unpacked gives the bits below `p` back. -/
theorem packBelow_unpackBelow {b p : Nat} {ws : List Nat} (hs : ws.sum = p) :
    packBelow p (unpackBelow b p ws) ws = b % 2 ^ p := by
  induction ws generalizing p with
  | nil => simp only [List.sum_nil] at hs; subst hs; simp [packBelow, unpackBelow, Nat.mod_one]
  | cons w ws ih =>
    simp only [List.sum_cons] at hs
    simp only [packBelow, unpackBelow, ih (p := p - w) (by omega), Nat.shiftRight_eq_div_pow]
    have hp : 2 ^ p = 2 ^ (p - w) * 2 ^ w := by rw [← Nat.pow_add]; congr 1; omega
    rw [hp, Nat.mod_mul]
    ring

@[simp] theorem unpackBelow_length (b p : Nat) (ws : List Nat) : (unpackBelow b p ws).length = ws.length := by
  induction ws generalizing p with
  | nil => rfl
  | cons w ws ih => simp [unpackBelow, ih]

/-- Field `i` of a byte, at bit `p - (w_0 + ... + w_i)`. -/
theorem unpackBelow_getD (b : Nat) {p i : Nat} {ws : List Nat} (hi : i < ws.length) :
    (unpackBelow b p ws).getD i 0 = b / 2 ^ (p - (ws.take (i + 1)).sum) % 2 ^ ws.getD i 0 := by
  induction ws generalizing p i with
  | nil => simp at hi
  | cons w ws ih =>
    cases i with
    | zero => simp [unpackBelow, Nat.shiftRight_eq_div_pow]
    | succ i =>
      simp only [unpackBelow, List.getD_cons_succ, List.take_succ_cons, List.sum_cons,
        ih (by simpa using hi), Nat.sub_sub]

theorem unpackBelow_fits (b : Nat) {p i : Nat} {ws : List Nat} (hi : i < ws.length) :
    (unpackBelow b p ws).getD i 0 < 2 ^ ws.getD i 0 := by
  rw [unpackBelow_getD b hi]; exact Nat.mod_lt _ (Nat.two_pow_pos _)

/-! ## The header flag byte -/

/-- `flags_pack` of five fields that fit (42_bitfield.md R78). -/
theorem flagsPack_ok {prf rte ena cmp pr : Byte} (h0 : prf.toNat ≤ 3) (h1 : rte.toNat ≤ 1) (h2 : ena.toNat ≤ 3)
    (h3 : cmp.toNat ≤ 1) (h4 : pr.toNat ≤ 3) :
    flagsPack prf rte ena cmp pr =
      .ok (byteOf (prf.toNat * 64 + rte.toNat * 32 + ena.toNat * 8 + cmp.toNat * 4 + pr.toNat)) := by
  simp only [flagsPack, bfPack, flagWidths, firstOverflow, packBelow]
  rw [if_neg (by omega), if_neg (by omega), if_neg (by omega), if_neg (by omega), if_neg (by omega)]
  simp only [Except.ok.injEq]
  congr 1
  omega

theorem flagsPack_inv {prf rte ena cmp pr f : Byte} (h : flagsPack prf rte ena cmp pr = .ok f) :
    prf.toNat ≤ 3 ∧ rte.toNat ≤ 1 ∧ ena.toNat ≤ 3 ∧ cmp.toNat ≤ 1 ∧ pr.toNat ≤ 3 := by
  have hn := bfPack_inv h
  replace hn := (firstOverflow_eq_none (by simp [flagWidths])).1 hn
  have h0 := hn 0 (by decide)
  have h1 := hn 1 (by decide)
  have h2 := hn 2 (by decide)
  have h3 := hn 3 (by decide)
  have h4 := hn 4 (by decide)
  simp only [flagWidths, List.getD_cons_zero, List.getD_cons_succ] at h0 h1 h2 h3 h4
  omega

/-- The five fields of a packed flag byte are the five operands. -/
theorem flags_of_sum {prf rte ena cmp pr : Byte} (h0 : prf.toNat ≤ 3) (h1 : rte.toNat ≤ 1) (h2 : ena.toNat ≤ 3)
    (h3 : cmp.toNat ≤ 1) (h4 : pr.toNat ≤ 3) :
    let f := byteOf (prf.toNat * 64 + rte.toNat * 32 + ena.toNat * 8 + cmp.toNat * 4 + pr.toNat)
    flagPrf f = prf ∧ flagRte f = rte ∧ flagEna f = ena ∧ flagCmp f = cmp ∧ flagPr f = pr := by
  refine ⟨?_, ?_, ?_, ?_, ?_⟩ <;> apply BitVec.eq_of_toNat_eq <;>
    simp only [flagPrf, flagRte, flagEna, flagCmp, flagPr, byteOf, BitVec.toNat_ofNat] <;> omega

@[simp] theorem flagPrf_toNat (f : Byte) : (flagPrf f).toNat = f.toNat / 64 := by
  have := f.isLt; simp only [flagPrf, byteOf, BitVec.toNat_ofNat]; omega
@[simp] theorem flagRte_toNat (f : Byte) : (flagRte f).toNat = f.toNat / 32 % 2 := by
  simp only [flagRte, byteOf, BitVec.toNat_ofNat]; omega
@[simp] theorem flagEna_toNat (f : Byte) : (flagEna f).toNat = f.toNat / 8 % 4 := by
  simp only [flagEna, byteOf, BitVec.toNat_ofNat]; omega
@[simp] theorem flagCmp_toNat (f : Byte) : (flagCmp f).toNat = f.toNat / 4 % 2 := by
  simp only [flagCmp, byteOf, BitVec.toNat_ofNat]; omega
@[simp] theorem flagPr_toNat (f : Byte) : (flagPr f).toNat = f.toNat % 4 := by
  simp only [flagPr, byteOf, BitVec.toNat_ofNat]; omega

/-- Packing the fields of a byte gives the byte back: it has no unused bit (42_bitfield.md R77). -/
theorem flagsPack_unpack (f : Byte) :
    flagsPack (flagPrf f) (flagRte f) (flagEna f) (flagCmp f) (flagPr f) = .ok f := by
  have := f.isLt
  rw [flagsPack_ok (by simp; omega) (by simp; omega) (by simp; omega) (by simp; omega) (by simp; omega)]
  simp only [flagPrf_toNat, flagRte_toNat, flagEna_toNat, flagCmp_toNat, flagPr_toNat, Except.ok.injEq]
  apply BitVec.eq_of_toNat_eq
  simp only [byteOf, BitVec.toNat_ofNat]
  omega

end Sys2Proof.Machine
end

