-- ==== Sys2Proof/Laws/State.lean ====
section
/-! SUPPORT. One lemma per field per update of State, and one per register read by name: true by rfl, so that no later
proof unfolds a record update. -/

namespace Sys2Proof.Machine

/-! ### setCrc8r -/
@[simp] theorem State.setCrc8r_hdr (s : State) (v : Byte) : (s.setCrc8r v).hdr = s.hdr := rfl
@[simp] theorem State.setCrc8r_plen (s : State) (v : Byte) : (s.setCrc8r v).rng.plen = s.rng.plen := rfl
@[simp] theorem State.setCrc8r_flen (s : State) (v : Byte) : (s.setCrc8r v).rng.flen = s.rng.flen := rfl
@[simp] theorem State.setCrc8r_rs (s : State) (v : Byte) : (s.setCrc8r v).rng.rs = s.rng.rs := rfl
@[simp] theorem State.setCrc8r_rl (s : State) (v : Byte) : (s.setCrc8r v).rng.rl = s.rng.rl := rfl
@[simp] theorem State.setCrc8r_crc8r (s : State) (v : Byte) : (s.setCrc8r v).rng.crc8r = v := rfl
@[simp] theorem State.setCrc8r_crc16r (s : State) (v : Byte) : (s.setCrc8r v).rng.crc16r = s.rng.crc16r := rfl
@[simp] theorem State.setCrc8r_bf (s : State) (v : Byte) : (s.setCrc8r v).bf = s.bf := rfl
@[simp] theorem State.setCrc8r_ctl (s : State) (v : Byte) : (s.setCrc8r v).ctl = s.ctl := rfl
@[simp] theorem State.setCrc8r_pb (s : State) (v : Byte) : (s.setCrc8r v).pb = s.pb := rfl
@[simp] theorem State.setCrc8r_fb (s : State) (v : Byte) : (s.setCrc8r v).fb = s.fb := rfl
@[simp] theorem State.setCrc8r_epoch (s : State) (v : Byte) : (s.setCrc8r v).epoch = s.epoch := rfl
@[simp] theorem State.setCrc8r_pending (s : State) (v : Byte) : (s.setCrc8r v).pending = s.pending := rfl
@[simp] theorem State.setCrc8r_reply (s : State) (v : Byte) : (s.setCrc8r v).reply = s.reply := rfl

/-! ### setCrc16r -/
@[simp] theorem State.setCrc16r_hdr (s : State) (v : Half) : (s.setCrc16r v).hdr = s.hdr := rfl
@[simp] theorem State.setCrc16r_plen (s : State) (v : Half) : (s.setCrc16r v).rng.plen = s.rng.plen := rfl
@[simp] theorem State.setCrc16r_flen (s : State) (v : Half) : (s.setCrc16r v).rng.flen = s.rng.flen := rfl
@[simp] theorem State.setCrc16r_rs (s : State) (v : Half) : (s.setCrc16r v).rng.rs = s.rng.rs := rfl
@[simp] theorem State.setCrc16r_rl (s : State) (v : Half) : (s.setCrc16r v).rng.rl = s.rng.rl := rfl
@[simp] theorem State.setCrc16r_crc8r (s : State) (v : Half) : (s.setCrc16r v).rng.crc8r = s.rng.crc8r := rfl
@[simp] theorem State.setCrc16r_crc16r (s : State) (v : Half) : (s.setCrc16r v).rng.crc16r = v := rfl
@[simp] theorem State.setCrc16r_bf (s : State) (v : Half) : (s.setCrc16r v).bf = s.bf := rfl
@[simp] theorem State.setCrc16r_ctl (s : State) (v : Half) : (s.setCrc16r v).ctl = s.ctl := rfl
@[simp] theorem State.setCrc16r_pb (s : State) (v : Half) : (s.setCrc16r v).pb = s.pb := rfl
@[simp] theorem State.setCrc16r_fb (s : State) (v : Half) : (s.setCrc16r v).fb = s.fb := rfl
@[simp] theorem State.setCrc16r_epoch (s : State) (v : Half) : (s.setCrc16r v).epoch = s.epoch := rfl
@[simp] theorem State.setCrc16r_pending (s : State) (v : Half) : (s.setCrc16r v).pending = s.pending := rfl
@[simp] theorem State.setCrc16r_reply (s : State) (v : Half) : (s.setCrc16r v).reply = s.reply := rfl

/-! ### setFlen -/
@[simp] theorem State.setFlen_hdr (s : State) (n : Nat) : (s.setFlen n).hdr = s.hdr := rfl
@[simp] theorem State.setFlen_plen (s : State) (n : Nat) : (s.setFlen n).rng.plen = s.rng.plen := rfl
@[simp] theorem State.setFlen_flen (s : State) (n : Nat) : (s.setFlen n).rng.flen = BitVec.ofNat 17 n := rfl
@[simp] theorem State.setFlen_rs (s : State) (n : Nat) : (s.setFlen n).rng.rs = s.rng.rs := rfl
@[simp] theorem State.setFlen_rl (s : State) (n : Nat) : (s.setFlen n).rng.rl = s.rng.rl := rfl
@[simp] theorem State.setFlen_crc8r (s : State) (n : Nat) : (s.setFlen n).rng.crc8r = s.rng.crc8r := rfl
@[simp] theorem State.setFlen_crc16r (s : State) (n : Nat) : (s.setFlen n).rng.crc16r = s.rng.crc16r := rfl
@[simp] theorem State.setFlen_bf (s : State) (n : Nat) : (s.setFlen n).bf = s.bf := rfl
@[simp] theorem State.setFlen_ctl (s : State) (n : Nat) : (s.setFlen n).ctl = s.ctl := rfl
@[simp] theorem State.setFlen_pb (s : State) (n : Nat) : (s.setFlen n).pb = s.pb := rfl
@[simp] theorem State.setFlen_fb (s : State) (n : Nat) : (s.setFlen n).fb = s.fb := rfl
@[simp] theorem State.setFlen_epoch (s : State) (n : Nat) : (s.setFlen n).epoch = s.epoch := rfl
@[simp] theorem State.setFlen_pending (s : State) (n : Nat) : (s.setFlen n).pending = s.pending := rfl
@[simp] theorem State.setFlen_reply (s : State) (n : Nat) : (s.setFlen n).reply = s.reply := rfl

/-! ### setPlen -/
@[simp] theorem State.setPlen_hdr (s : State) (n : Nat) : (s.setPlen n).hdr = s.hdr := rfl
@[simp] theorem State.setPlen_plen (s : State) (n : Nat) : (s.setPlen n).rng.plen = BitVec.ofNat 16 n := rfl
@[simp] theorem State.setPlen_flen (s : State) (n : Nat) : (s.setPlen n).rng.flen = s.rng.flen := rfl
@[simp] theorem State.setPlen_rs (s : State) (n : Nat) : (s.setPlen n).rng.rs = s.rng.rs := rfl
@[simp] theorem State.setPlen_rl (s : State) (n : Nat) : (s.setPlen n).rng.rl = s.rng.rl := rfl
@[simp] theorem State.setPlen_crc8r (s : State) (n : Nat) : (s.setPlen n).rng.crc8r = s.rng.crc8r := rfl
@[simp] theorem State.setPlen_crc16r (s : State) (n : Nat) : (s.setPlen n).rng.crc16r = s.rng.crc16r := rfl
@[simp] theorem State.setPlen_bf (s : State) (n : Nat) : (s.setPlen n).bf = s.bf := rfl
@[simp] theorem State.setPlen_ctl (s : State) (n : Nat) : (s.setPlen n).ctl = s.ctl := rfl
@[simp] theorem State.setPlen_pb (s : State) (n : Nat) : (s.setPlen n).pb = s.pb := rfl
@[simp] theorem State.setPlen_fb (s : State) (n : Nat) : (s.setPlen n).fb = s.fb := rfl
@[simp] theorem State.setPlen_epoch (s : State) (n : Nat) : (s.setPlen n).epoch = s.epoch := rfl
@[simp] theorem State.setPlen_pending (s : State) (n : Nat) : (s.setPlen n).pending = s.pending := rfl
@[simp] theorem State.setPlen_reply (s : State) (n : Nat) : (s.setPlen n).reply = s.reply := rfl

/-! ### setFdl -/
@[simp] theorem State.setFdl_prv (s : State) (n : Nat) : (s.setFdl n).hdr.prv = s.hdr.prv := rfl
@[simp] theorem State.setFdl_skid (s : State) (n : Nat) : (s.setFdl n).hdr.skid = s.hdr.skid := rfl
@[simp] theorem State.setFdl_prf (s : State) (n : Nat) : (s.setFdl n).hdr.prf = s.hdr.prf := rfl
@[simp] theorem State.setFdl_rte (s : State) (n : Nat) : (s.setFdl n).hdr.rte = s.hdr.rte := rfl
@[simp] theorem State.setFdl_ena (s : State) (n : Nat) : (s.setFdl n).hdr.ena = s.hdr.ena := rfl
@[simp] theorem State.setFdl_cmp (s : State) (n : Nat) : (s.setFdl n).hdr.cmp = s.hdr.cmp := rfl
@[simp] theorem State.setFdl_pr (s : State) (n : Nat) : (s.setFdl n).hdr.pr = s.hdr.pr := rfl
@[simp] theorem State.setFdl_hl (s : State) (n : Nat) : (s.setFdl n).hdr.hl = s.hdr.hl := rfl
@[simp] theorem State.setFdl_he (s : State) (n : Nat) : (s.setFdl n).hdr.he = s.hdr.he := rfl
@[simp] theorem State.setFdl_fdl (s : State) (n : Nat) : (s.setFdl n).hdr.fdl = BitVec.ofNat 16 n := rfl
@[simp] theorem State.setFdl_pid (s : State) (n : Nat) : (s.setFdl n).hdr.pid = s.hdr.pid := rfl
@[simp] theorem State.setFdl_pt (s : State) (n : Nat) : (s.setFdl n).hdr.pt = s.hdr.pt := rfl
@[simp] theorem State.setFdl_pra (s : State) (n : Nat) : (s.setFdl n).hdr.pra = s.hdr.pra := rfl
@[simp] theorem State.setFdl_rca (s : State) (n : Nat) : (s.setFdl n).hdr.rca = s.hdr.rca := rfl
@[simp] theorem State.setFdl_ttl (s : State) (n : Nat) : (s.setFdl n).hdr.ttl = s.hdr.ttl := rfl
@[simp] theorem State.setFdl_hcs (s : State) (n : Nat) : (s.setFdl n).hdr.hcs = s.hdr.hcs := rfl
@[simp] theorem State.setFdl_sfrcs (s : State) (n : Nat) : (s.setFdl n).hdr.sfrcs = s.hdr.sfrcs := rfl
@[simp] theorem State.setFdl_flags (s : State) (n : Nat) : (s.setFdl n).hdr.flags = s.hdr.flags := rfl
@[simp] theorem State.setFdl_rng (s : State) (n : Nat) : (s.setFdl n).rng = s.rng := rfl
@[simp] theorem State.setFdl_bf (s : State) (n : Nat) : (s.setFdl n).bf = s.bf := rfl
@[simp] theorem State.setFdl_ctl (s : State) (n : Nat) : (s.setFdl n).ctl = s.ctl := rfl
@[simp] theorem State.setFdl_pb (s : State) (n : Nat) : (s.setFdl n).pb = s.pb := rfl
@[simp] theorem State.setFdl_fb (s : State) (n : Nat) : (s.setFdl n).fb = s.fb := rfl
@[simp] theorem State.setFdl_epoch (s : State) (n : Nat) : (s.setFdl n).epoch = s.epoch := rfl
@[simp] theorem State.setFdl_pending (s : State) (n : Nat) : (s.setFdl n).pending = s.pending := rfl
@[simp] theorem State.setFdl_reply (s : State) (n : Nat) : (s.setFdl n).reply = s.reply := rfl

/-! ### setHcs -/
@[simp] theorem State.setHcs_prv (s : State) (v : Byte) : (s.setHcs v).hdr.prv = s.hdr.prv := rfl
@[simp] theorem State.setHcs_skid (s : State) (v : Byte) : (s.setHcs v).hdr.skid = s.hdr.skid := rfl
@[simp] theorem State.setHcs_prf (s : State) (v : Byte) : (s.setHcs v).hdr.prf = s.hdr.prf := rfl
@[simp] theorem State.setHcs_rte (s : State) (v : Byte) : (s.setHcs v).hdr.rte = s.hdr.rte := rfl
@[simp] theorem State.setHcs_ena (s : State) (v : Byte) : (s.setHcs v).hdr.ena = s.hdr.ena := rfl
@[simp] theorem State.setHcs_cmp (s : State) (v : Byte) : (s.setHcs v).hdr.cmp = s.hdr.cmp := rfl
@[simp] theorem State.setHcs_pr (s : State) (v : Byte) : (s.setHcs v).hdr.pr = s.hdr.pr := rfl
@[simp] theorem State.setHcs_hl (s : State) (v : Byte) : (s.setHcs v).hdr.hl = s.hdr.hl := rfl
@[simp] theorem State.setHcs_he (s : State) (v : Byte) : (s.setHcs v).hdr.he = s.hdr.he := rfl
@[simp] theorem State.setHcs_fdl (s : State) (v : Byte) : (s.setHcs v).hdr.fdl = s.hdr.fdl := rfl
@[simp] theorem State.setHcs_pid (s : State) (v : Byte) : (s.setHcs v).hdr.pid = s.hdr.pid := rfl
@[simp] theorem State.setHcs_pt (s : State) (v : Byte) : (s.setHcs v).hdr.pt = s.hdr.pt := rfl
@[simp] theorem State.setHcs_pra (s : State) (v : Byte) : (s.setHcs v).hdr.pra = s.hdr.pra := rfl
@[simp] theorem State.setHcs_rca (s : State) (v : Byte) : (s.setHcs v).hdr.rca = s.hdr.rca := rfl
@[simp] theorem State.setHcs_ttl (s : State) (v : Byte) : (s.setHcs v).hdr.ttl = s.hdr.ttl := rfl
@[simp] theorem State.setHcs_hcs (s : State) (v : Byte) : (s.setHcs v).hdr.hcs = v := rfl
@[simp] theorem State.setHcs_sfrcs (s : State) (v : Byte) : (s.setHcs v).hdr.sfrcs = s.hdr.sfrcs := rfl
@[simp] theorem State.setHcs_flags (s : State) (v : Byte) : (s.setHcs v).hdr.flags = s.hdr.flags := rfl
@[simp] theorem State.setHcs_rng (s : State) (v : Byte) : (s.setHcs v).rng = s.rng := rfl
@[simp] theorem State.setHcs_bf (s : State) (v : Byte) : (s.setHcs v).bf = s.bf := rfl
@[simp] theorem State.setHcs_ctl (s : State) (v : Byte) : (s.setHcs v).ctl = s.ctl := rfl
@[simp] theorem State.setHcs_pb (s : State) (v : Byte) : (s.setHcs v).pb = s.pb := rfl
@[simp] theorem State.setHcs_fb (s : State) (v : Byte) : (s.setHcs v).fb = s.fb := rfl
@[simp] theorem State.setHcs_epoch (s : State) (v : Byte) : (s.setHcs v).epoch = s.epoch := rfl
@[simp] theorem State.setHcs_pending (s : State) (v : Byte) : (s.setHcs v).pending = s.pending := rfl
@[simp] theorem State.setHcs_reply (s : State) (v : Byte) : (s.setHcs v).reply = s.reply := rfl

/-! ### setSfrcs -/
@[simp] theorem State.setSfrcs_prv (s : State) (v : Half) : (s.setSfrcs v).hdr.prv = s.hdr.prv := rfl
@[simp] theorem State.setSfrcs_skid (s : State) (v : Half) : (s.setSfrcs v).hdr.skid = s.hdr.skid := rfl
@[simp] theorem State.setSfrcs_prf (s : State) (v : Half) : (s.setSfrcs v).hdr.prf = s.hdr.prf := rfl
@[simp] theorem State.setSfrcs_rte (s : State) (v : Half) : (s.setSfrcs v).hdr.rte = s.hdr.rte := rfl
@[simp] theorem State.setSfrcs_ena (s : State) (v : Half) : (s.setSfrcs v).hdr.ena = s.hdr.ena := rfl
@[simp] theorem State.setSfrcs_cmp (s : State) (v : Half) : (s.setSfrcs v).hdr.cmp = s.hdr.cmp := rfl
@[simp] theorem State.setSfrcs_pr (s : State) (v : Half) : (s.setSfrcs v).hdr.pr = s.hdr.pr := rfl
@[simp] theorem State.setSfrcs_hl (s : State) (v : Half) : (s.setSfrcs v).hdr.hl = s.hdr.hl := rfl
@[simp] theorem State.setSfrcs_he (s : State) (v : Half) : (s.setSfrcs v).hdr.he = s.hdr.he := rfl
@[simp] theorem State.setSfrcs_fdl (s : State) (v : Half) : (s.setSfrcs v).hdr.fdl = s.hdr.fdl := rfl
@[simp] theorem State.setSfrcs_pid (s : State) (v : Half) : (s.setSfrcs v).hdr.pid = s.hdr.pid := rfl
@[simp] theorem State.setSfrcs_pt (s : State) (v : Half) : (s.setSfrcs v).hdr.pt = s.hdr.pt := rfl
@[simp] theorem State.setSfrcs_pra (s : State) (v : Half) : (s.setSfrcs v).hdr.pra = s.hdr.pra := rfl
@[simp] theorem State.setSfrcs_rca (s : State) (v : Half) : (s.setSfrcs v).hdr.rca = s.hdr.rca := rfl
@[simp] theorem State.setSfrcs_ttl (s : State) (v : Half) : (s.setSfrcs v).hdr.ttl = s.hdr.ttl := rfl
@[simp] theorem State.setSfrcs_hcs (s : State) (v : Half) : (s.setSfrcs v).hdr.hcs = s.hdr.hcs := rfl
@[simp] theorem State.setSfrcs_sfrcs (s : State) (v : Half) : (s.setSfrcs v).hdr.sfrcs = v := rfl
@[simp] theorem State.setSfrcs_flags (s : State) (v : Half) : (s.setSfrcs v).hdr.flags = s.hdr.flags := rfl
@[simp] theorem State.setSfrcs_rng (s : State) (v : Half) : (s.setSfrcs v).rng = s.rng := rfl
@[simp] theorem State.setSfrcs_bf (s : State) (v : Half) : (s.setSfrcs v).bf = s.bf := rfl
@[simp] theorem State.setSfrcs_ctl (s : State) (v : Half) : (s.setSfrcs v).ctl = s.ctl := rfl
@[simp] theorem State.setSfrcs_pb (s : State) (v : Half) : (s.setSfrcs v).pb = s.pb := rfl
@[simp] theorem State.setSfrcs_fb (s : State) (v : Half) : (s.setSfrcs v).fb = s.fb := rfl
@[simp] theorem State.setSfrcs_epoch (s : State) (v : Half) : (s.setSfrcs v).epoch = s.epoch := rfl
@[simp] theorem State.setSfrcs_pending (s : State) (v : Half) : (s.setSfrcs v).pending = s.pending := rfl
@[simp] theorem State.setSfrcs_reply (s : State) (v : Half) : (s.setSfrcs v).reply = s.reply := rfl

/-! ### setFlags -/
@[simp] theorem State.setFlags_prv (s : State) (v : Byte) : (s.setFlags v).hdr.prv = s.hdr.prv := rfl
@[simp] theorem State.setFlags_skid (s : State) (v : Byte) : (s.setFlags v).hdr.skid = s.hdr.skid := rfl
@[simp] theorem State.setFlags_prf (s : State) (v : Byte) : (s.setFlags v).hdr.prf = s.hdr.prf := rfl
@[simp] theorem State.setFlags_rte (s : State) (v : Byte) : (s.setFlags v).hdr.rte = s.hdr.rte := rfl
@[simp] theorem State.setFlags_ena (s : State) (v : Byte) : (s.setFlags v).hdr.ena = s.hdr.ena := rfl
@[simp] theorem State.setFlags_cmp (s : State) (v : Byte) : (s.setFlags v).hdr.cmp = s.hdr.cmp := rfl
@[simp] theorem State.setFlags_pr (s : State) (v : Byte) : (s.setFlags v).hdr.pr = s.hdr.pr := rfl
@[simp] theorem State.setFlags_hl (s : State) (v : Byte) : (s.setFlags v).hdr.hl = s.hdr.hl := rfl
@[simp] theorem State.setFlags_he (s : State) (v : Byte) : (s.setFlags v).hdr.he = s.hdr.he := rfl
@[simp] theorem State.setFlags_fdl (s : State) (v : Byte) : (s.setFlags v).hdr.fdl = s.hdr.fdl := rfl
@[simp] theorem State.setFlags_pid (s : State) (v : Byte) : (s.setFlags v).hdr.pid = s.hdr.pid := rfl
@[simp] theorem State.setFlags_pt (s : State) (v : Byte) : (s.setFlags v).hdr.pt = s.hdr.pt := rfl
@[simp] theorem State.setFlags_pra (s : State) (v : Byte) : (s.setFlags v).hdr.pra = s.hdr.pra := rfl
@[simp] theorem State.setFlags_rca (s : State) (v : Byte) : (s.setFlags v).hdr.rca = s.hdr.rca := rfl
@[simp] theorem State.setFlags_ttl (s : State) (v : Byte) : (s.setFlags v).hdr.ttl = s.hdr.ttl := rfl
@[simp] theorem State.setFlags_hcs (s : State) (v : Byte) : (s.setFlags v).hdr.hcs = s.hdr.hcs := rfl
@[simp] theorem State.setFlags_sfrcs (s : State) (v : Byte) : (s.setFlags v).hdr.sfrcs = s.hdr.sfrcs := rfl
@[simp] theorem State.setFlags_flags (s : State) (v : Byte) : (s.setFlags v).hdr.flags = v := rfl
@[simp] theorem State.setFlags_rng (s : State) (v : Byte) : (s.setFlags v).rng = s.rng := rfl
@[simp] theorem State.setFlags_bf (s : State) (v : Byte) : (s.setFlags v).bf = s.bf := rfl
@[simp] theorem State.setFlags_ctl (s : State) (v : Byte) : (s.setFlags v).ctl = s.ctl := rfl
@[simp] theorem State.setFlags_pb (s : State) (v : Byte) : (s.setFlags v).pb = s.pb := rfl
@[simp] theorem State.setFlags_fb (s : State) (v : Byte) : (s.setFlags v).fb = s.fb := rfl
@[simp] theorem State.setFlags_epoch (s : State) (v : Byte) : (s.setFlags v).epoch = s.epoch := rfl
@[simp] theorem State.setFlags_pending (s : State) (v : Byte) : (s.setFlags v).pending = s.pending := rfl
@[simp] theorem State.setFlags_reply (s : State) (v : Byte) : (s.setFlags v).reply = s.reply := rfl

/-! ### setBfbyte -/
@[simp] theorem State.setBfbyte_hdr (s : State) (v : Byte) : (s.setBfbyte v).hdr = s.hdr := rfl
@[simp] theorem State.setBfbyte_rng (s : State) (v : Byte) : (s.setBfbyte v).rng = s.rng := rfl
@[simp] theorem State.setBfbyte_bfn (s : State) (v : Byte) : (s.setBfbyte v).bf.bfn = s.bf.bfn := rfl
@[simp] theorem State.setBfbyte_bfbyte (s : State) (v : Byte) : (s.setBfbyte v).bf.bfbyte = v := rfl
@[simp] theorem State.setBfbyte_bfv0 (s : State) (v : Byte) : (s.setBfbyte v).bf.bfv0 = s.bf.bfv0 := rfl
@[simp] theorem State.setBfbyte_bfv1 (s : State) (v : Byte) : (s.setBfbyte v).bf.bfv1 = s.bf.bfv1 := rfl
@[simp] theorem State.setBfbyte_bfv2 (s : State) (v : Byte) : (s.setBfbyte v).bf.bfv2 = s.bf.bfv2 := rfl
@[simp] theorem State.setBfbyte_bfv3 (s : State) (v : Byte) : (s.setBfbyte v).bf.bfv3 = s.bf.bfv3 := rfl
@[simp] theorem State.setBfbyte_bfv4 (s : State) (v : Byte) : (s.setBfbyte v).bf.bfv4 = s.bf.bfv4 := rfl
@[simp] theorem State.setBfbyte_bfv5 (s : State) (v : Byte) : (s.setBfbyte v).bf.bfv5 = s.bf.bfv5 := rfl
@[simp] theorem State.setBfbyte_bfv6 (s : State) (v : Byte) : (s.setBfbyte v).bf.bfv6 = s.bf.bfv6 := rfl
@[simp] theorem State.setBfbyte_bfv7 (s : State) (v : Byte) : (s.setBfbyte v).bf.bfv7 = s.bf.bfv7 := rfl
@[simp] theorem State.setBfbyte_bfw0 (s : State) (v : Byte) : (s.setBfbyte v).bf.bfw0 = s.bf.bfw0 := rfl
@[simp] theorem State.setBfbyte_bfw1 (s : State) (v : Byte) : (s.setBfbyte v).bf.bfw1 = s.bf.bfw1 := rfl
@[simp] theorem State.setBfbyte_bfw2 (s : State) (v : Byte) : (s.setBfbyte v).bf.bfw2 = s.bf.bfw2 := rfl
@[simp] theorem State.setBfbyte_bfw3 (s : State) (v : Byte) : (s.setBfbyte v).bf.bfw3 = s.bf.bfw3 := rfl
@[simp] theorem State.setBfbyte_bfw4 (s : State) (v : Byte) : (s.setBfbyte v).bf.bfw4 = s.bf.bfw4 := rfl
@[simp] theorem State.setBfbyte_bfw5 (s : State) (v : Byte) : (s.setBfbyte v).bf.bfw5 = s.bf.bfw5 := rfl
@[simp] theorem State.setBfbyte_bfw6 (s : State) (v : Byte) : (s.setBfbyte v).bf.bfw6 = s.bf.bfw6 := rfl
@[simp] theorem State.setBfbyte_bfw7 (s : State) (v : Byte) : (s.setBfbyte v).bf.bfw7 = s.bf.bfw7 := rfl
@[simp] theorem State.setBfbyte_ctl (s : State) (v : Byte) : (s.setBfbyte v).ctl = s.ctl := rfl
@[simp] theorem State.setBfbyte_pb (s : State) (v : Byte) : (s.setBfbyte v).pb = s.pb := rfl
@[simp] theorem State.setBfbyte_fb (s : State) (v : Byte) : (s.setBfbyte v).fb = s.fb := rfl
@[simp] theorem State.setBfbyte_epoch (s : State) (v : Byte) : (s.setBfbyte v).epoch = s.epoch := rfl
@[simp] theorem State.setBfbyte_pending (s : State) (v : Byte) : (s.setBfbyte v).pending = s.pending := rfl
@[simp] theorem State.setBfbyte_reply (s : State) (v : Byte) : (s.setBfbyte v).reply = s.reply := rfl

/-! ### setBfValues -/
@[simp] theorem State.setBfValues_hdr (s : State) (vs : List Nat) : (s.setBfValues vs).hdr = s.hdr := rfl
@[simp] theorem State.setBfValues_rng (s : State) (vs : List Nat) : (s.setBfValues vs).rng = s.rng := rfl
@[simp] theorem State.setBfValues_bfn (s : State) (vs : List Nat) : (s.setBfValues vs).bf.bfn = s.bf.bfn := rfl
@[simp] theorem State.setBfValues_bfbyte (s : State) (vs : List Nat) : (s.setBfValues vs).bf.bfbyte = s.bf.bfbyte := rfl
@[simp] theorem State.setBfValues_bfv0 (s : State) (vs : List Nat) : (s.setBfValues vs).bf.bfv0 = byteOf (vs.getD 0 0) := rfl
@[simp] theorem State.setBfValues_bfv1 (s : State) (vs : List Nat) : (s.setBfValues vs).bf.bfv1 = byteOf (vs.getD 1 0) := rfl
@[simp] theorem State.setBfValues_bfv2 (s : State) (vs : List Nat) : (s.setBfValues vs).bf.bfv2 = byteOf (vs.getD 2 0) := rfl
@[simp] theorem State.setBfValues_bfv3 (s : State) (vs : List Nat) : (s.setBfValues vs).bf.bfv3 = byteOf (vs.getD 3 0) := rfl
@[simp] theorem State.setBfValues_bfv4 (s : State) (vs : List Nat) : (s.setBfValues vs).bf.bfv4 = byteOf (vs.getD 4 0) := rfl
@[simp] theorem State.setBfValues_bfv5 (s : State) (vs : List Nat) : (s.setBfValues vs).bf.bfv5 = byteOf (vs.getD 5 0) := rfl
@[simp] theorem State.setBfValues_bfv6 (s : State) (vs : List Nat) : (s.setBfValues vs).bf.bfv6 = byteOf (vs.getD 6 0) := rfl
@[simp] theorem State.setBfValues_bfv7 (s : State) (vs : List Nat) : (s.setBfValues vs).bf.bfv7 = byteOf (vs.getD 7 0) := rfl
@[simp] theorem State.setBfValues_bfw0 (s : State) (vs : List Nat) : (s.setBfValues vs).bf.bfw0 = s.bf.bfw0 := rfl
@[simp] theorem State.setBfValues_bfw1 (s : State) (vs : List Nat) : (s.setBfValues vs).bf.bfw1 = s.bf.bfw1 := rfl
@[simp] theorem State.setBfValues_bfw2 (s : State) (vs : List Nat) : (s.setBfValues vs).bf.bfw2 = s.bf.bfw2 := rfl
@[simp] theorem State.setBfValues_bfw3 (s : State) (vs : List Nat) : (s.setBfValues vs).bf.bfw3 = s.bf.bfw3 := rfl
@[simp] theorem State.setBfValues_bfw4 (s : State) (vs : List Nat) : (s.setBfValues vs).bf.bfw4 = s.bf.bfw4 := rfl
@[simp] theorem State.setBfValues_bfw5 (s : State) (vs : List Nat) : (s.setBfValues vs).bf.bfw5 = s.bf.bfw5 := rfl
@[simp] theorem State.setBfValues_bfw6 (s : State) (vs : List Nat) : (s.setBfValues vs).bf.bfw6 = s.bf.bfw6 := rfl
@[simp] theorem State.setBfValues_bfw7 (s : State) (vs : List Nat) : (s.setBfValues vs).bf.bfw7 = s.bf.bfw7 := rfl
@[simp] theorem State.setBfValues_ctl (s : State) (vs : List Nat) : (s.setBfValues vs).ctl = s.ctl := rfl
@[simp] theorem State.setBfValues_pb (s : State) (vs : List Nat) : (s.setBfValues vs).pb = s.pb := rfl
@[simp] theorem State.setBfValues_fb (s : State) (vs : List Nat) : (s.setBfValues vs).fb = s.fb := rfl
@[simp] theorem State.setBfValues_epoch (s : State) (vs : List Nat) : (s.setBfValues vs).epoch = s.epoch := rfl
@[simp] theorem State.setBfValues_pending (s : State) (vs : List Nat) : (s.setBfValues vs).pending = s.pending := rfl
@[simp] theorem State.setBfValues_reply (s : State) (vs : List Nat) : (s.setBfValues vs).reply = s.reply := rfl

/-! ### setFlagFields -/
@[simp] theorem State.setFlagFields_prv (s : State) (a b c d e : Byte) : (s.setFlagFields a b c d e).hdr.prv = s.hdr.prv := rfl
@[simp] theorem State.setFlagFields_skid (s : State) (a b c d e : Byte) :
    (s.setFlagFields a b c d e).hdr.skid = s.hdr.skid := rfl
@[simp] theorem State.setFlagFields_prf (s : State) (a b c d e : Byte) : (s.setFlagFields a b c d e).hdr.prf = a := rfl
@[simp] theorem State.setFlagFields_rte (s : State) (a b c d e : Byte) : (s.setFlagFields a b c d e).hdr.rte = b := rfl
@[simp] theorem State.setFlagFields_ena (s : State) (a b c d e : Byte) : (s.setFlagFields a b c d e).hdr.ena = c := rfl
@[simp] theorem State.setFlagFields_cmp (s : State) (a b c d e : Byte) : (s.setFlagFields a b c d e).hdr.cmp = d := rfl
@[simp] theorem State.setFlagFields_pr (s : State) (a b c d e : Byte) : (s.setFlagFields a b c d e).hdr.pr = e := rfl
@[simp] theorem State.setFlagFields_hl (s : State) (a b c d e : Byte) : (s.setFlagFields a b c d e).hdr.hl = s.hdr.hl := rfl
@[simp] theorem State.setFlagFields_he (s : State) (a b c d e : Byte) : (s.setFlagFields a b c d e).hdr.he = s.hdr.he := rfl
@[simp] theorem State.setFlagFields_fdl (s : State) (a b c d e : Byte) : (s.setFlagFields a b c d e).hdr.fdl = s.hdr.fdl := rfl
@[simp] theorem State.setFlagFields_pid (s : State) (a b c d e : Byte) : (s.setFlagFields a b c d e).hdr.pid = s.hdr.pid := rfl
@[simp] theorem State.setFlagFields_pt (s : State) (a b c d e : Byte) : (s.setFlagFields a b c d e).hdr.pt = s.hdr.pt := rfl
@[simp] theorem State.setFlagFields_pra (s : State) (a b c d e : Byte) : (s.setFlagFields a b c d e).hdr.pra = s.hdr.pra := rfl
@[simp] theorem State.setFlagFields_rca (s : State) (a b c d e : Byte) : (s.setFlagFields a b c d e).hdr.rca = s.hdr.rca := rfl
@[simp] theorem State.setFlagFields_ttl (s : State) (a b c d e : Byte) : (s.setFlagFields a b c d e).hdr.ttl = s.hdr.ttl := rfl
@[simp] theorem State.setFlagFields_hcs (s : State) (a b c d e : Byte) : (s.setFlagFields a b c d e).hdr.hcs = s.hdr.hcs := rfl
@[simp] theorem State.setFlagFields_sfrcs (s : State) (a b c d e : Byte) :
    (s.setFlagFields a b c d e).hdr.sfrcs = s.hdr.sfrcs := rfl
@[simp] theorem State.setFlagFields_flags (s : State) (a b c d e : Byte) :
    (s.setFlagFields a b c d e).hdr.flags = s.hdr.flags := rfl
@[simp] theorem State.setFlagFields_rng (s : State) (a b c d e : Byte) : (s.setFlagFields a b c d e).rng = s.rng := rfl
@[simp] theorem State.setFlagFields_bf (s : State) (a b c d e : Byte) : (s.setFlagFields a b c d e).bf = s.bf := rfl
@[simp] theorem State.setFlagFields_ctl (s : State) (a b c d e : Byte) : (s.setFlagFields a b c d e).ctl = s.ctl := rfl
@[simp] theorem State.setFlagFields_pb (s : State) (a b c d e : Byte) : (s.setFlagFields a b c d e).pb = s.pb := rfl
@[simp] theorem State.setFlagFields_fb (s : State) (a b c d e : Byte) : (s.setFlagFields a b c d e).fb = s.fb := rfl
@[simp] theorem State.setFlagFields_epoch (s : State) (a b c d e : Byte) : (s.setFlagFields a b c d e).epoch = s.epoch := rfl
@[simp] theorem State.setFlagFields_pending (s : State) (a b c d e : Byte) :
    (s.setFlagFields a b c d e).pending = s.pending := rfl
@[simp] theorem State.setFlagFields_reply (s : State) (a b c d e : Byte) : (s.setFlagFields a b c d e).reply = s.reply := rfl

/-! ### setPhase -/
@[simp] theorem State.setPhase_hdr (s : State) (p : Phase) (n : Nat) : (s.setPhase p n).hdr = s.hdr := rfl
@[simp] theorem State.setPhase_rng (s : State) (p : Phase) (n : Nat) : (s.setPhase p n).rng = s.rng := rfl
@[simp] theorem State.setPhase_bf (s : State) (p : Phase) (n : Nat) : (s.setPhase p n).bf = s.bf := rfl
@[simp] theorem State.setPhase_cmd (s : State) (p : Phase) (n : Nat) : (s.setPhase p n).ctl.cmd = s.ctl.cmd := rfl
@[simp] theorem State.setPhase_status (s : State) (p : Phase) (n : Nat) : (s.setPhase p n).ctl.status = s.ctl.status := rfl
@[simp] theorem State.setPhase_errcode (s : State) (p : Phase) (n : Nat) : (s.setPhase p n).ctl.errcode = s.ctl.errcode := rfl
@[simp] theorem State.setPhase_errfield (s : State) (p : Phase) (n : Nat) :
    (s.setPhase p n).ctl.errfield = s.ctl.errfield := rfl
@[simp] theorem State.setPhase_errofs (s : State) (p : Phase) (n : Nat) : (s.setPhase p n).ctl.errofs = s.ctl.errofs := rfl
@[simp] theorem State.setPhase_phase (s : State) (p : Phase) (n : Nat) : (s.setPhase p n).ctl.phase = p.num := rfl
@[simp] theorem State.setPhase_cur (s : State) (p : Phase) (n : Nat) : (s.setPhase p n).ctl.cur = BitVec.ofNat 17 n := rfl
@[simp] theorem State.setPhase_pb (s : State) (p : Phase) (n : Nat) : (s.setPhase p n).pb = s.pb := rfl
@[simp] theorem State.setPhase_fb (s : State) (p : Phase) (n : Nat) : (s.setPhase p n).fb = s.fb := rfl
@[simp] theorem State.setPhase_epoch (s : State) (p : Phase) (n : Nat) : (s.setPhase p n).epoch = s.epoch := rfl
@[simp] theorem State.setPhase_pending (s : State) (p : Phase) (n : Nat) : (s.setPhase p n).pending = s.pending := rfl
@[simp] theorem State.setPhase_reply (s : State) (p : Phase) (n : Nat) : (s.setPhase p n).reply = s.reply := rfl

/-! ### clearRegisters -/
@[simp] theorem State.clearRegisters_hdr (s : State) : (s.clearRegisters).hdr = .reset := rfl
@[simp] theorem State.clearRegisters_rng (s : State) : (s.clearRegisters).rng = .reset := rfl
@[simp] theorem State.clearRegisters_bf (s : State) : (s.clearRegisters).bf = .reset := rfl
@[simp] theorem State.clearRegisters_ctl (s : State) : (s.clearRegisters).ctl = .reset := rfl
@[simp] theorem State.clearRegisters_pb (s : State) : (s.clearRegisters).pb = s.pb := rfl
@[simp] theorem State.clearRegisters_fb (s : State) : (s.clearRegisters).fb = s.fb := rfl
@[simp] theorem State.clearRegisters_epoch (s : State) : (s.clearRegisters).epoch = s.epoch := rfl
@[simp] theorem State.clearRegisters_pending (s : State) : (s.clearRegisters).pending = s.pending := rfl
@[simp] theorem State.clearRegisters_reply (s : State) : (s.clearRegisters).reply = s.reply := rfl

/-! ### startCommand -/
@[simp] theorem State.startCommand_hdr (s : State) (w : Word) : (s.startCommand w).hdr = s.hdr := rfl
@[simp] theorem State.startCommand_rng (s : State) (w : Word) : (s.startCommand w).rng = s.rng := rfl
@[simp] theorem State.startCommand_bf (s : State) (w : Word) : (s.startCommand w).bf = s.bf := rfl
@[simp] theorem State.startCommand_cmd (s : State) (w : Word) : (s.startCommand w).ctl.cmd = w := rfl
@[simp] theorem State.startCommand_status (s : State) (w : Word) : (s.startCommand w).ctl.status = statusBusy := rfl
@[simp] theorem State.startCommand_errcode (s : State) (w : Word) : (s.startCommand w).ctl.errcode = s.ctl.errcode := rfl
@[simp] theorem State.startCommand_errfield (s : State) (w : Word) : (s.startCommand w).ctl.errfield = s.ctl.errfield := rfl
@[simp] theorem State.startCommand_errofs (s : State) (w : Word) : (s.startCommand w).ctl.errofs = s.ctl.errofs := rfl
@[simp] theorem State.startCommand_phase (s : State) (w : Word) : (s.startCommand w).ctl.phase = s.ctl.phase := rfl
@[simp] theorem State.startCommand_cur (s : State) (w : Word) : (s.startCommand w).ctl.cur = s.ctl.cur := rfl
@[simp] theorem State.startCommand_pb (s : State) (w : Word) : (s.startCommand w).pb = s.pb := rfl
@[simp] theorem State.startCommand_fb (s : State) (w : Word) : (s.startCommand w).fb = s.fb := rfl
@[simp] theorem State.startCommand_epoch (s : State) (w : Word) : (s.startCommand w).epoch = s.epoch := rfl
@[simp] theorem State.startCommand_pending (s : State) (w : Word) : (s.startCommand w).pending = s.pending := rfl
@[simp] theorem State.startCommand_reply (s : State) (w : Word) : (s.startCommand w).reply = s.reply := rfl

/-! ### finish -/
@[simp] theorem State.finish_hdr (s : State) : (s.finish).hdr = s.hdr := rfl
@[simp] theorem State.finish_rng (s : State) : (s.finish).rng = s.rng := rfl
@[simp] theorem State.finish_bf (s : State) : (s.finish).bf = s.bf := rfl
@[simp] theorem State.finish_cmd (s : State) : (s.finish).ctl.cmd = s.ctl.cmd := rfl
@[simp] theorem State.finish_status (s : State) : (s.finish).ctl.status = statusAfter 0 := rfl
@[simp] theorem State.finish_errcode (s : State) : (s.finish).ctl.errcode = 0 := rfl
@[simp] theorem State.finish_errfield (s : State) : (s.finish).ctl.errfield = 0 := rfl
@[simp] theorem State.finish_errofs (s : State) : (s.finish).ctl.errofs = 0 := rfl
@[simp] theorem State.finish_phase (s : State) : (s.finish).ctl.phase = s.ctl.phase := rfl
@[simp] theorem State.finish_cur (s : State) : (s.finish).ctl.cur = s.ctl.cur := rfl
@[simp] theorem State.finish_pb (s : State) : (s.finish).pb = s.pb := rfl
@[simp] theorem State.finish_fb (s : State) : (s.finish).fb = s.fb := rfl
@[simp] theorem State.finish_epoch (s : State) : (s.finish).epoch = s.epoch := rfl
@[simp] theorem State.finish_pending (s : State) : (s.finish).pending = s.pending := rfl
@[simp] theorem State.finish_reply (s : State) : (s.finish).reply = s.reply := rfl

/-! ### raise -/
@[simp] theorem State.raise_hdr (s : State) (e : Err) : (s.raise e).hdr = s.hdr := rfl
@[simp] theorem State.raise_rng (s : State) (e : Err) : (s.raise e).rng = s.rng := rfl
@[simp] theorem State.raise_bf (s : State) (e : Err) : (s.raise e).bf = s.bf := rfl
@[simp] theorem State.raise_cmd (s : State) (e : Err) : (s.raise e).ctl.cmd = s.ctl.cmd := rfl
@[simp] theorem State.raise_status (s : State) (e : Err) : (s.raise e).ctl.status = statusAfter e.code.num := rfl
@[simp] theorem State.raise_errcode (s : State) (e : Err) : (s.raise e).ctl.errcode = e.code.num := rfl
@[simp] theorem State.raise_errfield (s : State) (e : Err) : (s.raise e).ctl.errfield = byteOf e.field := rfl
@[simp] theorem State.raise_errofs (s : State) (e : Err) : (s.raise e).ctl.errofs = BitVec.ofNat 32 e.ofs := rfl
@[simp] theorem State.raise_phase (s : State) (e : Err) : (s.raise e).ctl.phase = s.ctl.phase := rfl
@[simp] theorem State.raise_cur (s : State) (e : Err) : (s.raise e).ctl.cur = s.ctl.cur := rfl
@[simp] theorem State.raise_pb (s : State) (e : Err) : (s.raise e).pb = s.pb := rfl
@[simp] theorem State.raise_fb (s : State) (e : Err) : (s.raise e).fb = s.fb := rfl
@[simp] theorem State.raise_epoch (s : State) (e : Err) : (s.raise e).epoch = s.epoch := rfl
@[simp] theorem State.raise_pending (s : State) (e : Err) : (s.raise e).pending = s.pending := rfl
@[simp] theorem State.raise_reply (s : State) (e : Err) : (s.raise e).reply = s.reply := rfl

/-! ### loadHeader -/
@[simp] theorem State.loadHeader_prv (s : State) (h : Header) (x f : Byte) : (s.loadHeader h x f).hdr.prv = h.prv := rfl
@[simp] theorem State.loadHeader_skid (s : State) (h : Header) (x f : Byte) : (s.loadHeader h x f).hdr.skid = h.skid := rfl
@[simp] theorem State.loadHeader_prf (s : State) (h : Header) (x f : Byte) : (s.loadHeader h x f).hdr.prf = h.prf := rfl
@[simp] theorem State.loadHeader_rte (s : State) (h : Header) (x f : Byte) : (s.loadHeader h x f).hdr.rte = h.rte := rfl
@[simp] theorem State.loadHeader_ena (s : State) (h : Header) (x f : Byte) : (s.loadHeader h x f).hdr.ena = h.ena := rfl
@[simp] theorem State.loadHeader_cmp (s : State) (h : Header) (x f : Byte) : (s.loadHeader h x f).hdr.cmp = h.cmp := rfl
@[simp] theorem State.loadHeader_pr (s : State) (h : Header) (x f : Byte) : (s.loadHeader h x f).hdr.pr = h.pr := rfl
@[simp] theorem State.loadHeader_hl (s : State) (h : Header) (x f : Byte) : (s.loadHeader h x f).hdr.hl = h.hl := rfl
@[simp] theorem State.loadHeader_he (s : State) (h : Header) (x f : Byte) : (s.loadHeader h x f).hdr.he = h.he := rfl
@[simp] theorem State.loadHeader_fdl (s : State) (h : Header) (x f : Byte) : (s.loadHeader h x f).hdr.fdl = h.fdl := rfl
@[simp] theorem State.loadHeader_pid (s : State) (h : Header) (x f : Byte) : (s.loadHeader h x f).hdr.pid = h.pid := rfl
@[simp] theorem State.loadHeader_pt (s : State) (h : Header) (x f : Byte) : (s.loadHeader h x f).hdr.pt = h.pt := rfl
@[simp] theorem State.loadHeader_pra (s : State) (h : Header) (x f : Byte) : (s.loadHeader h x f).hdr.pra = h.pra := rfl
@[simp] theorem State.loadHeader_rca (s : State) (h : Header) (x f : Byte) : (s.loadHeader h x f).hdr.rca = h.rca := rfl
@[simp] theorem State.loadHeader_ttl (s : State) (h : Header) (x f : Byte) : (s.loadHeader h x f).hdr.ttl = h.ttl := rfl
@[simp] theorem State.loadHeader_hcs (s : State) (h : Header) (x f : Byte) : (s.loadHeader h x f).hdr.hcs = x := rfl
@[simp] theorem State.loadHeader_sfrcs (s : State) (h : Header) (x f : Byte) :
    (s.loadHeader h x f).hdr.sfrcs = s.hdr.sfrcs := rfl
@[simp] theorem State.loadHeader_flags (s : State) (h : Header) (x f : Byte) : (s.loadHeader h x f).hdr.flags = f := rfl
@[simp] theorem State.loadHeader_rng (s : State) (h : Header) (x f : Byte) : (s.loadHeader h x f).rng = s.rng := rfl
@[simp] theorem State.loadHeader_bf (s : State) (h : Header) (x f : Byte) : (s.loadHeader h x f).bf = s.bf := rfl
@[simp] theorem State.loadHeader_ctl (s : State) (h : Header) (x f : Byte) : (s.loadHeader h x f).ctl = s.ctl := rfl
@[simp] theorem State.loadHeader_pb (s : State) (h : Header) (x f : Byte) : (s.loadHeader h x f).pb = s.pb := rfl
@[simp] theorem State.loadHeader_fb (s : State) (h : Header) (x f : Byte) : (s.loadHeader h x f).fb = s.fb := rfl
@[simp] theorem State.loadHeader_epoch (s : State) (h : Header) (x f : Byte) : (s.loadHeader h x f).epoch = s.epoch := rfl
@[simp] theorem State.loadHeader_pending (s : State) (h : Header) (x f : Byte) :
    (s.loadHeader h x f).pending = s.pending := rfl
@[simp] theorem State.loadHeader_reply (s : State) (h : Header) (x f : Byte) : (s.loadHeader h x f).reply = s.reply := rfl

/-! ### assertReset -/
@[simp] theorem State.assertReset_hdr (s : State) : (s.assertReset).hdr = .reset := rfl
@[simp] theorem State.assertReset_rng (s : State) : (s.assertReset).rng = .reset := rfl
@[simp] theorem State.assertReset_bf (s : State) : (s.assertReset).bf = .reset := rfl
@[simp] theorem State.assertReset_ctl (s : State) : (s.assertReset).ctl = .reset := rfl
@[simp] theorem State.assertReset_pb (s : State) : (s.assertReset).pb = [] := rfl
@[simp] theorem State.assertReset_fb (s : State) : (s.assertReset).fb = [] := rfl
@[simp] theorem State.assertReset_epoch (s : State) : (s.assertReset).epoch = s.epoch + 1 := rfl
@[simp] theorem State.assertReset_pending (s : State) : (s.assertReset).pending = s.pending := rfl
@[simp] theorem State.assertReset_reply (s : State) : (s.assertReset).reply = none := rfl

/-! ### answer -/
@[simp] theorem State.answer_hdr (s : State) (v : Option Word) : (s.answer v).hdr = s.hdr := rfl
@[simp] theorem State.answer_rng (s : State) (v : Option Word) : (s.answer v).rng = s.rng := rfl
@[simp] theorem State.answer_bf (s : State) (v : Option Word) : (s.answer v).bf = s.bf := rfl
@[simp] theorem State.answer_ctl (s : State) (v : Option Word) : (s.answer v).ctl = s.ctl := rfl
@[simp] theorem State.answer_pb (s : State) (v : Option Word) : (s.answer v).pb = s.pb := rfl
@[simp] theorem State.answer_fb (s : State) (v : Option Word) : (s.answer v).fb = s.fb := rfl
@[simp] theorem State.answer_epoch (s : State) (v : Option Word) : (s.answer v).epoch = s.epoch := rfl
@[simp] theorem State.answer_pending (s : State) (v : Option Word) : (s.answer v).pending = s.pending := rfl
@[simp] theorem State.answer_reply (s : State) (v : Option Word) : (s.answer v).reply = v := rfl

/-! ### withPending -/
@[simp] theorem State.withPending_hdr (s : State) (l : List HostAccess) : (s.withPending l).hdr = s.hdr := rfl
@[simp] theorem State.withPending_rng (s : State) (l : List HostAccess) : (s.withPending l).rng = s.rng := rfl
@[simp] theorem State.withPending_bf (s : State) (l : List HostAccess) : (s.withPending l).bf = s.bf := rfl
@[simp] theorem State.withPending_ctl (s : State) (l : List HostAccess) : (s.withPending l).ctl = s.ctl := rfl
@[simp] theorem State.withPending_pb (s : State) (l : List HostAccess) : (s.withPending l).pb = s.pb := rfl
@[simp] theorem State.withPending_fb (s : State) (l : List HostAccess) : (s.withPending l).fb = s.fb := rfl
@[simp] theorem State.withPending_epoch (s : State) (l : List HostAccess) : (s.withPending l).epoch = s.epoch := rfl
@[simp] theorem State.withPending_pending (s : State) (l : List HostAccess) : (s.withPending l).pending = l := rfl
@[simp] theorem State.withPending_reply (s : State) (l : List HostAccess) : (s.withPending l).reply = s.reply := rfl

/-! ### store -/
@[simp] theorem State.store_hdr (s : State) (buf : Buf) (a : Nat) (bs : List Byte) :
    (s.store buf a bs).hdr = s.hdr := by cases buf <;> rfl
@[simp] theorem State.store_rng (s : State) (buf : Buf) (a : Nat) (bs : List Byte) :
    (s.store buf a bs).rng = s.rng := by cases buf <;> rfl
@[simp] theorem State.store_bf (s : State) (buf : Buf) (a : Nat) (bs : List Byte) :
    (s.store buf a bs).bf = s.bf := by cases buf <;> rfl
@[simp] theorem State.store_ctl (s : State) (buf : Buf) (a : Nat) (bs : List Byte) :
    (s.store buf a bs).ctl = s.ctl := by cases buf <;> rfl
@[simp] theorem State.store_epoch (s : State) (buf : Buf) (a : Nat) (bs : List Byte) :
    (s.store buf a bs).epoch = s.epoch := by cases buf <;> rfl
@[simp] theorem State.store_pending (s : State) (buf : Buf) (a : Nat) (bs : List Byte) :
    (s.store buf a bs).pending = s.pending := by cases buf <;> rfl
@[simp] theorem State.store_reply (s : State) (buf : Buf) (a : Nat) (bs : List Byte) :
    (s.store buf a bs).reply = s.reply := by cases buf <;> rfl
@[simp] theorem State.store_pb_pb (s : State) (a : Nat) (bs : List Byte) :
    (s.store .pb a bs).pb = s.pb.writeBytes a bs := rfl
@[simp] theorem State.store_pb_fb (s : State) (a : Nat) (bs : List Byte) : (s.store .pb a bs).fb = s.fb := rfl
@[simp] theorem State.store_fb_fb (s : State) (a : Nat) (bs : List Byte) :
    (s.store .fb a bs).fb = s.fb.writeBytes a bs := rfl
@[simp] theorem State.store_fb_pb (s : State) (a : Nat) (bs : List Byte) : (s.store .fb a bs).pb = s.pb := rfl

/-! ### Registers by name -/
@[simp] theorem State.reg_prv (s : State) : s.reg .prv = s.hdr.prv.setWidth 32 := rfl
@[simp] theorem State.reg_skid (s : State) : s.reg .skid = s.hdr.skid.setWidth 32 := rfl
@[simp] theorem State.reg_prf (s : State) : s.reg .prf = s.hdr.prf.setWidth 32 := rfl
@[simp] theorem State.reg_rte (s : State) : s.reg .rte = s.hdr.rte.setWidth 32 := rfl
@[simp] theorem State.reg_ena (s : State) : s.reg .ena = s.hdr.ena.setWidth 32 := rfl
@[simp] theorem State.reg_cmp (s : State) : s.reg .cmp = s.hdr.cmp.setWidth 32 := rfl
@[simp] theorem State.reg_pr (s : State) : s.reg .pr = s.hdr.pr.setWidth 32 := rfl
@[simp] theorem State.reg_hl (s : State) : s.reg .hl = s.hdr.hl.setWidth 32 := rfl
@[simp] theorem State.reg_he (s : State) : s.reg .he = s.hdr.he.setWidth 32 := rfl
@[simp] theorem State.reg_fdl (s : State) : s.reg .fdl = s.hdr.fdl.setWidth 32 := rfl
@[simp] theorem State.reg_pid (s : State) : s.reg .pid = s.hdr.pid.setWidth 32 := rfl
@[simp] theorem State.reg_pt (s : State) : s.reg .pt = s.hdr.pt.setWidth 32 := rfl
@[simp] theorem State.reg_pra (s : State) : s.reg .pra = s.hdr.pra.setWidth 32 := rfl
@[simp] theorem State.reg_rca (s : State) : s.reg .rca = s.hdr.rca.setWidth 32 := rfl
@[simp] theorem State.reg_ttl (s : State) : s.reg .ttl = s.hdr.ttl.setWidth 32 := rfl
@[simp] theorem State.reg_hcs (s : State) : s.reg .hcs = s.hdr.hcs.setWidth 32 := rfl
@[simp] theorem State.reg_sfrcs (s : State) : s.reg .sfrcs = s.hdr.sfrcs.setWidth 32 := rfl
@[simp] theorem State.reg_flags (s : State) : s.reg .flags = s.hdr.flags.setWidth 32 := rfl
@[simp] theorem State.reg_plen (s : State) : s.reg .plen = s.rng.plen.setWidth 32 := rfl
@[simp] theorem State.reg_flen (s : State) : s.reg .flen = s.rng.flen.setWidth 32 := rfl
@[simp] theorem State.reg_rs (s : State) : s.reg .rs = s.rng.rs.setWidth 32 := rfl
@[simp] theorem State.reg_rl (s : State) : s.reg .rl = s.rng.rl.setWidth 32 := rfl
@[simp] theorem State.reg_crc8r (s : State) : s.reg .crc8r = s.rng.crc8r.setWidth 32 := rfl
@[simp] theorem State.reg_crc16r (s : State) : s.reg .crc16r = s.rng.crc16r.setWidth 32 := rfl
@[simp] theorem State.reg_bfn (s : State) : s.reg .bfn = s.bf.bfn.setWidth 32 := rfl
@[simp] theorem State.reg_bfbyte (s : State) : s.reg .bfbyte = s.bf.bfbyte.setWidth 32 := rfl
@[simp] theorem State.reg_bfv0 (s : State) : s.reg .bfv0 = s.bf.bfv0.setWidth 32 := rfl
@[simp] theorem State.reg_bfv1 (s : State) : s.reg .bfv1 = s.bf.bfv1.setWidth 32 := rfl
@[simp] theorem State.reg_bfv2 (s : State) : s.reg .bfv2 = s.bf.bfv2.setWidth 32 := rfl
@[simp] theorem State.reg_bfv3 (s : State) : s.reg .bfv3 = s.bf.bfv3.setWidth 32 := rfl
@[simp] theorem State.reg_bfv4 (s : State) : s.reg .bfv4 = s.bf.bfv4.setWidth 32 := rfl
@[simp] theorem State.reg_bfv5 (s : State) : s.reg .bfv5 = s.bf.bfv5.setWidth 32 := rfl
@[simp] theorem State.reg_bfv6 (s : State) : s.reg .bfv6 = s.bf.bfv6.setWidth 32 := rfl
@[simp] theorem State.reg_bfv7 (s : State) : s.reg .bfv7 = s.bf.bfv7.setWidth 32 := rfl
@[simp] theorem State.reg_bfw0 (s : State) : s.reg .bfw0 = s.bf.bfw0.setWidth 32 := rfl
@[simp] theorem State.reg_bfw1 (s : State) : s.reg .bfw1 = s.bf.bfw1.setWidth 32 := rfl
@[simp] theorem State.reg_bfw2 (s : State) : s.reg .bfw2 = s.bf.bfw2.setWidth 32 := rfl
@[simp] theorem State.reg_bfw3 (s : State) : s.reg .bfw3 = s.bf.bfw3.setWidth 32 := rfl
@[simp] theorem State.reg_bfw4 (s : State) : s.reg .bfw4 = s.bf.bfw4.setWidth 32 := rfl
@[simp] theorem State.reg_bfw5 (s : State) : s.reg .bfw5 = s.bf.bfw5.setWidth 32 := rfl
@[simp] theorem State.reg_bfw6 (s : State) : s.reg .bfw6 = s.bf.bfw6.setWidth 32 := rfl
@[simp] theorem State.reg_bfw7 (s : State) : s.reg .bfw7 = s.bf.bfw7.setWidth 32 := rfl
@[simp] theorem State.reg_cmd (s : State) : s.reg .cmd = s.ctl.cmd := rfl
@[simp] theorem State.reg_status (s : State) : s.reg .status = s.ctl.status.setWidth 32 := rfl
@[simp] theorem State.reg_errcode (s : State) : s.reg .errcode = s.ctl.errcode.setWidth 32 := rfl
@[simp] theorem State.reg_errfield (s : State) : s.reg .errfield = s.ctl.errfield.setWidth 32 := rfl
@[simp] theorem State.reg_errofs (s : State) : s.reg .errofs = s.ctl.errofs := rfl
@[simp] theorem State.reg_phase (s : State) : s.reg .phase = s.ctl.phase.setWidth 32 := rfl
@[simp] theorem State.reg_cur (s : State) : s.reg .cur = s.ctl.cur.setWidth 32 := rfl

end Sys2Proof.Machine
end

