-- ==== Sys2Proof/Laws/Buffers.lean ====
section
/-! SUPPORT. Reading and storing buffer bytes: read after store, slices, and which updates leave the buffers alone. -/

namespace Sys2Proof.Machine

/-- What a byte reads depends on nothing but the two memories and the epoch. -/
theorem State.byteAt_congr {s t : State} (hp : t.pb = s.pb) (hf : t.fb = s.fb) (he : t.epoch = s.epoch)
    (buf : Buf) (a : Nat) : t.byteAt buf a = s.byteAt buf a := by
  cases buf <;> simp [State.byteAt, State.memory, hp, hf, he]

/-- Read after store. -/
theorem State.byteAt_store (s : State) (buf : Buf) (lo a : Nat) (bs : List Byte) :
    (s.store buf lo bs).byteAt buf a =
      if lo ≤ a ∧ a < lo + bs.length then bs.getD (a - lo) 0 else s.byteAt buf a := by
  have key : ∀ (m : Memory) (d : Byte),
      ((m.writeBytes lo bs).read? a).getD d =
        if lo ≤ a ∧ a < lo + bs.length then bs.getD (a - lo) 0 else (m.read? a).getD d := by
    intro m d
    rw [Memory.read?_writeBytes]
    split
    · rw [List.getElem?_eq_getElem (by omega), List.getD_eq_getElem (hn := by omega)]; rfl
    · rfl
  cases buf <;> exact key _ _

/-- A store leaves the other buffer alone. -/
theorem State.byteAt_store_ne (s : State) {buf other : Buf} (h : other ≠ buf) (lo a : Nat) (bs : List Byte) :
    (s.store buf lo bs).byteAt other a = s.byteAt other a := by
  cases buf <;> cases other <;> first | exact absurd rfl h | rfl

@[simp] theorem State.slice_length (s : State) (buf : Buf) (a n : Nat) : (s.slice buf a n).length = n := by
  induction n generalizing a with
  | zero => rfl
  | succ n ih => simp [State.slice, ih]

theorem State.slice_getElem? (s : State) (buf : Buf) (a n i : Nat) :
    (s.slice buf a n)[i]? = if i < n then some (s.byteAt buf (a + i)) else none := by
  induction n generalizing a i with
  | zero => simp [State.slice]
  | succ n ih =>
    cases i with
    | zero => simp [State.slice]
    | succ i =>
      simp only [State.slice, List.getElem?_cons_succ, ih, Nat.add_lt_add_iff_right]
      congr 2; congr 1; omega

theorem State.slice_getD (s : State) (buf : Buf) (a n i : Nat) (h : i < n) :
    (s.slice buf a n).getD i 0 = s.byteAt buf (a + i) := by
  rw [List.getD_eq_getElem?_getD, State.slice_getElem?, if_pos h, Option.getD_some]

theorem State.slice_congr {s t : State} {buf buf' : Buf} {a a' n : Nat}
    (h : ∀ i, i < n → t.byteAt buf' (a' + i) = s.byteAt buf (a + i)) : t.slice buf' a' n = s.slice buf a n := by
  apply List.ext_getElem?
  intro i
  rw [State.slice_getElem?, State.slice_getElem?]
  split
  · rw [h i ‹_›]
  · rfl

theorem State.slice_take (s : State) (buf : Buf) (a n k : Nat) (h : k ≤ n) :
    (s.slice buf a n).take k = s.slice buf a k := by
  apply List.ext_getElem?
  intro i
  rw [List.getElem?_take, State.slice_getElem?, State.slice_getElem?]
  by_cases hk : i < k
  · rw [if_pos hk, if_pos hk, if_pos (by omega)]
  · rw [if_neg hk, if_neg hk]

theorem State.slice_drop (s : State) (buf : Buf) (a n k : Nat) :
    (s.slice buf a n).drop k = s.slice buf (a + k) (n - k) := by
  apply List.ext_getElem?
  intro i
  rw [List.getElem?_drop, State.slice_getElem?, State.slice_getElem?]
  by_cases h : k + i < n
  · rw [if_pos h, if_pos (by omega)]; congr 2; omega
  · rw [if_neg h, if_neg (by omega)]

/-- What was stored is what a slice of the same place reads. -/
theorem State.slice_store (s : State) (buf : Buf) (a : Nat) (bs : List Byte) :
    (s.store buf a bs).slice buf a bs.length = bs := by
  apply List.ext_getElem?
  intro i
  rw [State.slice_getElem?]
  split
  · next h =>
    rw [State.byteAt_store, if_pos (by omega)]
    simp [List.getD, List.getElem?_eq_getElem h]
  · next h => rw [List.getElem?_eq_none (by omega)]

end Sys2Proof.Machine
end

