-- ==== Sys2Proof/Laws/Frames.lean ====
section
/-! SUPPORT. What each update of State leaves alone, register by name and byte by offset: a later proof cites these and
unfolds no update. -/

namespace Sys2Proof.Machine

theorem State.reg_setCrc8r (s : State) (v : Byte) {r : Reg}
    (hn : r ∉ ([.crc8r] : List Reg)) : (s.setCrc8r v).reg r = s.reg r := by
  cases r <;> first | rfl | exact absurd (by decide) hn

@[simp] theorem State.byteAt_setCrc8r (s : State) (v : Byte) (buf : Buf) (i : Nat) :
    (s.setCrc8r v).byteAt buf i = s.byteAt buf i := State.byteAt_congr rfl rfl rfl buf i

@[simp] theorem State.slice_setCrc8r (s : State) (v : Byte) (buf : Buf) (i k : Nat) :
    (s.setCrc8r v).slice buf i k = s.slice buf i k := State.slice_congr fun _ _ => State.byteAt_setCrc8r s v buf _

theorem State.reg_setCrc16r (s : State) (v : Half) {r : Reg}
    (hn : r ∉ ([.crc16r] : List Reg)) : (s.setCrc16r v).reg r = s.reg r := by
  cases r <;> first | rfl | exact absurd (by decide) hn

@[simp] theorem State.byteAt_setCrc16r (s : State) (v : Half) (buf : Buf) (i : Nat) :
    (s.setCrc16r v).byteAt buf i = s.byteAt buf i := State.byteAt_congr rfl rfl rfl buf i

@[simp] theorem State.slice_setCrc16r (s : State) (v : Half) (buf : Buf) (i k : Nat) :
    (s.setCrc16r v).slice buf i k = s.slice buf i k := State.slice_congr fun _ _ => State.byteAt_setCrc16r s v buf _

theorem State.reg_setFlen (s : State) (n : Nat) {r : Reg}
    (hn : r ∉ ([.flen] : List Reg)) : (s.setFlen n).reg r = s.reg r := by
  cases r <;> first | rfl | exact absurd (by decide) hn

@[simp] theorem State.byteAt_setFlen (s : State) (n : Nat) (buf : Buf) (i : Nat) :
    (s.setFlen n).byteAt buf i = s.byteAt buf i := State.byteAt_congr rfl rfl rfl buf i

@[simp] theorem State.slice_setFlen (s : State) (n : Nat) (buf : Buf) (i k : Nat) :
    (s.setFlen n).slice buf i k = s.slice buf i k := State.slice_congr fun _ _ => State.byteAt_setFlen s n buf _

theorem State.reg_setPlen (s : State) (n : Nat) {r : Reg}
    (hn : r ∉ ([.plen] : List Reg)) : (s.setPlen n).reg r = s.reg r := by
  cases r <;> first | rfl | exact absurd (by decide) hn

@[simp] theorem State.byteAt_setPlen (s : State) (n : Nat) (buf : Buf) (i : Nat) :
    (s.setPlen n).byteAt buf i = s.byteAt buf i := State.byteAt_congr rfl rfl rfl buf i

@[simp] theorem State.slice_setPlen (s : State) (n : Nat) (buf : Buf) (i k : Nat) :
    (s.setPlen n).slice buf i k = s.slice buf i k := State.slice_congr fun _ _ => State.byteAt_setPlen s n buf _

theorem State.reg_setFdl (s : State) (n : Nat) {r : Reg}
    (hn : r ∉ ([.fdl] : List Reg)) : (s.setFdl n).reg r = s.reg r := by
  cases r <;> first | rfl | exact absurd (by decide) hn

@[simp] theorem State.byteAt_setFdl (s : State) (n : Nat) (buf : Buf) (i : Nat) :
    (s.setFdl n).byteAt buf i = s.byteAt buf i := State.byteAt_congr rfl rfl rfl buf i

@[simp] theorem State.slice_setFdl (s : State) (n : Nat) (buf : Buf) (i k : Nat) :
    (s.setFdl n).slice buf i k = s.slice buf i k := State.slice_congr fun _ _ => State.byteAt_setFdl s n buf _

theorem State.reg_setHcs (s : State) (v : Byte) {r : Reg}
    (hn : r ∉ ([.hcs] : List Reg)) : (s.setHcs v).reg r = s.reg r := by
  cases r <;> first | rfl | exact absurd (by decide) hn

@[simp] theorem State.byteAt_setHcs (s : State) (v : Byte) (buf : Buf) (i : Nat) :
    (s.setHcs v).byteAt buf i = s.byteAt buf i := State.byteAt_congr rfl rfl rfl buf i

@[simp] theorem State.slice_setHcs (s : State) (v : Byte) (buf : Buf) (i k : Nat) :
    (s.setHcs v).slice buf i k = s.slice buf i k := State.slice_congr fun _ _ => State.byteAt_setHcs s v buf _

theorem State.reg_setSfrcs (s : State) (v : Half) {r : Reg}
    (hn : r ∉ ([.sfrcs] : List Reg)) : (s.setSfrcs v).reg r = s.reg r := by
  cases r <;> first | rfl | exact absurd (by decide) hn

@[simp] theorem State.byteAt_setSfrcs (s : State) (v : Half) (buf : Buf) (i : Nat) :
    (s.setSfrcs v).byteAt buf i = s.byteAt buf i := State.byteAt_congr rfl rfl rfl buf i

@[simp] theorem State.slice_setSfrcs (s : State) (v : Half) (buf : Buf) (i k : Nat) :
    (s.setSfrcs v).slice buf i k = s.slice buf i k := State.slice_congr fun _ _ => State.byteAt_setSfrcs s v buf _

theorem State.reg_setFlags (s : State) (v : Byte) {r : Reg}
    (hn : r ∉ ([.flags] : List Reg)) : (s.setFlags v).reg r = s.reg r := by
  cases r <;> first | rfl | exact absurd (by decide) hn

@[simp] theorem State.byteAt_setFlags (s : State) (v : Byte) (buf : Buf) (i : Nat) :
    (s.setFlags v).byteAt buf i = s.byteAt buf i := State.byteAt_congr rfl rfl rfl buf i

@[simp] theorem State.slice_setFlags (s : State) (v : Byte) (buf : Buf) (i k : Nat) :
    (s.setFlags v).slice buf i k = s.slice buf i k := State.slice_congr fun _ _ => State.byteAt_setFlags s v buf _

theorem State.reg_setBfbyte (s : State) (v : Byte) {r : Reg}
    (hn : r ∉ ([.bfbyte] : List Reg)) : (s.setBfbyte v).reg r = s.reg r := by
  cases r <;> first | rfl | exact absurd (by decide) hn

@[simp] theorem State.byteAt_setBfbyte (s : State) (v : Byte) (buf : Buf) (i : Nat) :
    (s.setBfbyte v).byteAt buf i = s.byteAt buf i := State.byteAt_congr rfl rfl rfl buf i

@[simp] theorem State.slice_setBfbyte (s : State) (v : Byte) (buf : Buf) (i k : Nat) :
    (s.setBfbyte v).slice buf i k = s.slice buf i k := State.slice_congr fun _ _ => State.byteAt_setBfbyte s v buf _

theorem State.reg_setBfValues (s : State) (vs : List Nat) {r : Reg}
    (hn : r ∉ ([.bfv0, .bfv1, .bfv2, .bfv3, .bfv4, .bfv5, .bfv6, .bfv7] : List Reg)) : (s.setBfValues vs).reg r = s.reg r := by
  cases r <;> first | rfl | exact absurd (by decide) hn

@[simp] theorem State.byteAt_setBfValues (s : State) (vs : List Nat) (buf : Buf) (i : Nat) :
    (s.setBfValues vs).byteAt buf i = s.byteAt buf i := State.byteAt_congr rfl rfl rfl buf i

@[simp] theorem State.slice_setBfValues (s : State) (vs : List Nat) (buf : Buf) (i k : Nat) :
    (s.setBfValues vs).slice buf i k = s.slice buf i k := State.slice_congr fun _ _ => State.byteAt_setBfValues s vs buf _

theorem State.reg_setFlagFields (s : State) (a b c d e : Byte) {r : Reg}
    (hn : r ∉ ([.prf, .rte, .ena, .cmp, .pr] : List Reg)) : (s.setFlagFields a b c d e).reg r = s.reg r := by
  cases r <;> first | rfl | exact absurd (by decide) hn

@[simp] theorem State.byteAt_setFlagFields (s : State) (a b c d e : Byte) (buf : Buf) (i : Nat) :
    (s.setFlagFields a b c d e).byteAt buf i = s.byteAt buf i := State.byteAt_congr rfl rfl rfl buf i

@[simp] theorem State.slice_setFlagFields (s : State) (a b c d e : Byte) (buf : Buf) (i k : Nat) :
    (s.setFlagFields a b c d e).slice buf i k = s.slice buf i k := State.slice_congr fun _ _ => State.byteAt_setFlagFields s a b c d e buf _

theorem State.reg_setPhase (s : State) (p : Phase) (n : Nat) {r : Reg}
    (hn : r ∉ ([.phase, .cur] : List Reg)) : (s.setPhase p n).reg r = s.reg r := by
  cases r <;> first | rfl | exact absurd (by decide) hn

@[simp] theorem State.byteAt_setPhase (s : State) (p : Phase) (n : Nat) (buf : Buf) (i : Nat) :
    (s.setPhase p n).byteAt buf i = s.byteAt buf i := State.byteAt_congr rfl rfl rfl buf i

@[simp] theorem State.slice_setPhase (s : State) (p : Phase) (n : Nat) (buf : Buf) (i k : Nat) :
    (s.setPhase p n).slice buf i k = s.slice buf i k := State.slice_congr fun _ _ => State.byteAt_setPhase s p n buf _

@[simp] theorem State.byteAt_clearRegisters (s : State) (buf : Buf) (i : Nat) :
    (s.clearRegisters).byteAt buf i = s.byteAt buf i := State.byteAt_congr rfl rfl rfl buf i

@[simp] theorem State.slice_clearRegisters (s : State) (buf : Buf) (i k : Nat) :
    (s.clearRegisters).slice buf i k = s.slice buf i k := State.slice_congr fun _ _ => State.byteAt_clearRegisters s buf _

theorem State.reg_startCommand (s : State) (w : Word) {r : Reg}
    (hn : r ∉ ([.cmd, .status] : List Reg)) : (s.startCommand w).reg r = s.reg r := by
  cases r <;> first | rfl | exact absurd (by decide) hn

@[simp] theorem State.byteAt_startCommand (s : State) (w : Word) (buf : Buf) (i : Nat) :
    (s.startCommand w).byteAt buf i = s.byteAt buf i := State.byteAt_congr rfl rfl rfl buf i

@[simp] theorem State.slice_startCommand (s : State) (w : Word) (buf : Buf) (i k : Nat) :
    (s.startCommand w).slice buf i k = s.slice buf i k := State.slice_congr fun _ _ => State.byteAt_startCommand s w buf _

theorem State.reg_finish (s : State) {r : Reg}
    (hn : r ∉ ([.errcode, .errfield, .errofs, .status] : List Reg)) : (s.finish).reg r = s.reg r := by
  cases r <;> first | rfl | exact absurd (by decide) hn

@[simp] theorem State.byteAt_finish (s : State) (buf : Buf) (i : Nat) :
    (s.finish).byteAt buf i = s.byteAt buf i := State.byteAt_congr rfl rfl rfl buf i

@[simp] theorem State.slice_finish (s : State) (buf : Buf) (i k : Nat) :
    (s.finish).slice buf i k = s.slice buf i k := State.slice_congr fun _ _ => State.byteAt_finish s buf _

theorem State.reg_raise (s : State) (e : Err) {r : Reg}
    (hn : r ∉ ([.errcode, .errfield, .errofs, .status] : List Reg)) : (s.raise e).reg r = s.reg r := by
  cases r <;> first | rfl | exact absurd (by decide) hn

@[simp] theorem State.byteAt_raise (s : State) (e : Err) (buf : Buf) (i : Nat) :
    (s.raise e).byteAt buf i = s.byteAt buf i := State.byteAt_congr rfl rfl rfl buf i

@[simp] theorem State.slice_raise (s : State) (e : Err) (buf : Buf) (i k : Nat) :
    (s.raise e).slice buf i k = s.slice buf i k := State.slice_congr fun _ _ => State.byteAt_raise s e buf _

theorem State.reg_loadHeader (s : State) (h : Header) (x f : Byte) {r : Reg}
    (hn : r ∉ ([.prv, .skid, .prf, .rte, .ena, .cmp, .pr, .hl, .he, .fdl, .pid, .pt, .pra, .rca, .ttl, .hcs, .flags] : List Reg)) : (s.loadHeader h x f).reg r = s.reg r := by
  cases r <;> first | rfl | exact absurd (by decide) hn

@[simp] theorem State.byteAt_loadHeader (s : State) (h : Header) (x f : Byte) (buf : Buf) (i : Nat) :
    (s.loadHeader h x f).byteAt buf i = s.byteAt buf i := State.byteAt_congr rfl rfl rfl buf i

@[simp] theorem State.slice_loadHeader (s : State) (h : Header) (x f : Byte) (buf : Buf) (i k : Nat) :
    (s.loadHeader h x f).slice buf i k = s.slice buf i k := State.slice_congr fun _ _ => State.byteAt_loadHeader s h x f buf _

@[simp] theorem State.reg_answer (s : State) (v : Option Word) (r : Reg) : (s.answer v).reg r = s.reg r := by
  cases r <;> rfl

@[simp] theorem State.byteAt_answer (s : State) (v : Option Word) (buf : Buf) (i : Nat) :
    (s.answer v).byteAt buf i = s.byteAt buf i := State.byteAt_congr rfl rfl rfl buf i

@[simp] theorem State.slice_answer (s : State) (v : Option Word) (buf : Buf) (i k : Nat) :
    (s.answer v).slice buf i k = s.slice buf i k := State.slice_congr fun _ _ => State.byteAt_answer s v buf _

@[simp] theorem State.reg_withPending (s : State) (l : List HostAccess) (r : Reg) : (s.withPending l).reg r = s.reg r := by
  cases r <;> rfl

@[simp] theorem State.byteAt_withPending (s : State) (l : List HostAccess) (buf : Buf) (i : Nat) :
    (s.withPending l).byteAt buf i = s.byteAt buf i := State.byteAt_congr rfl rfl rfl buf i

@[simp] theorem State.slice_withPending (s : State) (l : List HostAccess) (buf : Buf) (i k : Nat) :
    (s.withPending l).slice buf i k = s.slice buf i k := State.slice_congr fun _ _ => State.byteAt_withPending s l buf _

@[simp] theorem State.reg_store (s : State) (buf : Buf) (i : Nat) (bs : List Byte) (r : Reg) :
    (s.store buf i bs).reg r = s.reg r := by
  cases buf <;> cases r <;> rfl

end Sys2Proof.Machine
end

