-- ==== Sys2Proof/Laws/Bus.lean ====
section
/-! SUPPORT. What a host access reaches (20_memory.md R35, R42) and what a step does with it. -/

namespace Sys2Proof.Machine

@[simp] theorem hardware_pbSize : Config.hardware.pbSize = 65535 := rfl
@[simp] theorem hardware_fbSize : Config.hardware.fbSize = 65553 := rfl
@[simp] theorem hardware_supportedPrv : Config.hardware.supportedPrv = [1] := rfl

theorem inRegWindow_iff (a : Nat) : inRegWindow a = true ↔ a < 196 := by
  rw [inRegWindow, decide_eq_true_iff, show Config.regBase = 0 from rfl, show Config.regCount = 49 from rfl]; omega

theorem inPbWindow_iff (a : Nat) : inPbWindow a = true ↔ 0x10000 ≤ a ∧ a < 0x1FFFF := by
  rw [inPbWindow, decide_eq_true_iff, show Config.pbBase = 0x10000 from rfl, hardware_pbSize]

theorem inFbWindow_iff (a : Nat) : inFbWindow a = true ↔ 0x20000 ≤ a ∧ a < 0x30011 := by
  rw [inFbWindow, decide_eq_true_iff, show Config.fbBase = 0x20000 from rfl, hardware_fbSize]

/-- The reserved addresses (20_memory.md R35). -/
theorem isReserved_iff (a : Nat) :
    isReserved a = true ↔ a < 0x40000 ∧ ¬a < 196 ∧ ¬(0x10000 ≤ a ∧ a < 0x1FFFF) ∧ ¬(0x20000 ≤ a ∧ a < 0x30011) := by
  rw [isReserved, Bool.and_eq_true, Bool.and_eq_true, Bool.and_eq_true, Bool.not_eq_true', Bool.not_eq_true',
    Bool.not_eq_true', ← Bool.not_eq_true, ← Bool.not_eq_true, ← Bool.not_eq_true, inRegWindow_iff, inPbWindow_iff,
    inFbWindow_iff, decide_eq_true_iff, and_assoc, and_assoc, show Config.busSize = 0x40000 from rfl]

/-- Registers are numbered in the order of the table (10_state.md R17). -/
theorem regOfNum_regNum (r : Reg) : regOfNum (regNum r) = some r := by
  cases r <;> rfl

theorem busTarget_reg (r : Reg) : busTarget .word (BitVec.ofNat 18 (4 * regNum r)).toNat = some (.reg r) := by
  cases r <;> decide

/-- The three cases of a byte address, with the bounds as numbers (20_memory.md R35). -/
theorem bufferTarget_cases (a : Nat) :
    (0x10000 ≤ a ∧ a < 0x1FFFF ∧ bufferTarget a = .byte .pb (a - 0x10000)) ∨
      (0x20000 ≤ a ∧ a < 0x30011 ∧ bufferTarget a = .byte .fb (a - 0x20000)) ∨
      (¬(0x10000 ≤ a ∧ a < 0x1FFFF) ∧ ¬(0x20000 ≤ a ∧ a < 0x30011) ∧ bufferTarget a = .reserved) := by
  have h1 : Config.pbBase = 0x10000 := rfl
  have h2 : Config.fbBase = 0x20000 := rfl
  have h3 := hardware_pbSize
  have h4 := hardware_fbSize
  unfold bufferTarget
  split
  · exact .inl ⟨by omega, by omega, rfl⟩
  · split
    · exact .inr (.inl ⟨by omega, by omega, rfl⟩)
    · exact .inr (.inr ⟨by omega, by omega, rfl⟩)

theorem bufferTarget_pb {a : Nat} (h : a < 65535) : bufferTarget (0x10000 + a) = .byte .pb a := by
  rcases bufferTarget_cases (0x10000 + a) with ⟨_, _, e⟩ | ⟨_, _, e⟩ | ⟨_, _, e⟩
  · rw [e, Nat.add_sub_cancel_left]
  · omega
  · omega

theorem bufferTarget_fb {a : Nat} (h : a < 65553) : bufferTarget (0x20000 + a) = .byte .fb a := by
  rcases bufferTarget_cases (0x20000 + a) with ⟨_, _, e⟩ | ⟨_, _, e⟩ | ⟨_, _, e⟩
  · omega
  · rw [e, Nat.add_sub_cancel_left]
  · omega

theorem bufferTarget_reserved {a : Nat} (h : isReserved a = true) : bufferTarget a = .reserved := by
  rw [isReserved_iff] at h
  rcases bufferTarget_cases a with ⟨_, _, e⟩ | ⟨_, _, e⟩ | ⟨_, _, e⟩
  · omega
  · omega
  · exact e

theorem busTarget_pb {a : Nat} (h : a < 65535) : busTarget .byte (0x10000 + a) = some (.byte .pb a) := by
  have : accessWellFormed .byte (0x10000 + a) = true := by
    simp only [accessWellFormed, Bool.or_eq_true, inPbWindow_iff]; omega
  simp only [busTarget, this, if_true, bufferTarget_pb h]

theorem busTarget_fb {a : Nat} (h : a < 65553) : busTarget .byte (0x20000 + a) = some (.byte .fb a) := by
  have : accessWellFormed .byte (0x20000 + a) = true := by
    simp only [accessWellFormed, Bool.or_eq_true, inFbWindow_iff]; omega
  simp only [busTarget, this, if_true, bufferTarget_fb h]

theorem busTarget_reserved {a : Nat} (h : isReserved a = true) : busTarget .byte a = some .reserved := by
  have : accessWellFormed .byte a = true := by simp [accessWellFormed, h]
  simp only [busTarget, this, if_true, bufferTarget_reserved h]

theorem busTarget_reserved_half {a : Nat} (h : isReserved a = true) (h1 : isReserved (a + 1) = true) :
    busTarget .half a = some .reserved := by
  simp only [busTarget, accessWellFormed, h, h1, Bool.and_self, if_true]

theorem regOfNum_eq_none {n : Nat} (h : 49 ≤ n) : regOfNum n = none := List.getElem?_eq_none h

theorem busTarget_reserved_word {a : Nat} (ha : a % 4 = 0) (h : isReserved a = true) (h1 : isReserved (a + 1) = true)
    (h2 : isReserved (a + 2) = true) (h3 : isReserved (a + 3) = true) : busTarget .word a = some .reserved := by
  have hn : regOfNum (a / 4) = none := by
    rw [isReserved_iff] at h
    exact regOfNum_eq_none (by omega)
  simp only [busTarget, accessWellFormed, ha, h, h1, h2, h3, hn, decide_true, Bool.and_self, Bool.or_true, if_true]

/-- An access has a target exactly when it is part of the interface (20_memory.md R42). -/
theorem busTarget_isSome (size : AccessSize) (a : Nat) :
    (busTarget size a).isSome = accessWellFormed size a := by
  unfold busTarget
  split
  · next h =>
    rw [h]
    cases size
    · rfl
    · rfl
    · simp only
      cases regOfNum (a / 4) <;> rfl
  · next h =>
    rw [Bool.not_eq_true] at h
    rw [h]; rfl

/-- A byte target lies inside its buffer. -/
theorem busTarget_byte_lt {size : AccessSize} {a o : Nat} {buf : Buf} (h : busTarget size a = some (.byte buf o)) :
    o < Config.hardware.sizeOf buf := by
  unfold busTarget at h
  split at h
  · cases size
    · simp only [Option.some.injEq] at h
      rcases bufferTarget_cases a with ⟨_, _, e⟩ | ⟨_, _, e⟩ | ⟨_, _, e⟩ <;> rw [e] at h <;> cases h
      · show a - 0x10000 < 65535; omega
      · show a - 0x20000 < 65553; omega
    · cases h
    · simp only at h
      split at h <;> cases h
  · cases h

theorem step_cons {s : State} {a : HostAccess} {rest : List HostAccess} (h : s.pending = a :: rest) :
    step s = hostAccess a (s.withPending rest) := by
  simp only [step, hostStep, h]

theorem hostAccess_read {size : AccessSize} {a : BusAddr} {t : Target} {s : State}
    (h : busTarget size a.toNat = some t) :
    hostAccess (.read size a) s = .next (s.answer (some (s.busRead t))) := by
  simp only [hostAccess, h]

theorem hostAccess_write {size : AccessSize} {a : BusAddr} {t : Target} {s : State} {w : Word}
    (h : busTarget size a.toNat = some t) (hc : t ≠ .reg .cmd) :
    hostAccess (.write size a w) s = .next ((s.answer none).busWrite w t) := by
  simp only [hostAccess, h]

theorem hostAccess_command {s : State} {w : Word} :
    hostAccess (.write .word cmdAddr w) s = commandWrite w (s.answer none) := by
  have h : busTarget .word cmdAddr.toNat = some (.reg .cmd) := by decide
  simp only [hostAccess, h]

end Sys2Proof.Machine
end

