-- ==== Sys2Proof/Laws/Crc.lean ====
section
/-! SUPPORT. The CRC registers: shifting is linear, and one-to-one when the polynomial has bit 0 set; so a loop that
differs in one byte ends differently (43_crc8.md R85, 44_crc16.md R90). -/

namespace Sys2Proof.Machine

theorem crcShift_xor {n : Nat} (poly a b : BitVec n) :
    crcShift poly (a ^^^ b) = crcShift poly a ^^^ crcShift poly b := by
  unfold crcShift
  rw [BitVec.msb_xor, BitVec.shiftLeft_xor_distrib]
  cases a.msb <;> cases b.msb <;> apply BitVec.eq_of_getLsbD_eq <;> intro i _ <;>
    simp only [Bool.bne_false, Bool.bne_true, Bool.not_true, Bool.not_false, if_true, if_false, Bool.false_eq_true,
      BitVec.getLsbD_xor] <;>
    cases ((a <<< 1).getLsbD i) <;> cases ((b <<< 1).getLsbD i) <;> cases (poly.getLsbD i) <;> rfl

theorem crcShifts_xor {n : Nat} (poly : BitVec n) (k : Nat) (a b : BitVec n) :
    crcShifts poly k (a ^^^ b) = crcShifts poly k a ^^^ crcShifts poly k b := by
  induction k generalizing a b with
  | zero => rfl
  | succ k ih => simp only [crcShifts, crcShift_xor, ih]

theorem crcShift_eq_zero {n : Nat} {poly c : BitVec n} (hp : poly.getLsbD 0 = true) (h : crcShift poly c = 0#n) :
    c = 0#n := by
  have hn : 0 < n := by
    rcases Nat.eq_zero_or_pos n with rfl | h
    · rw [BitVec.eq_nil poly] at hp; simp at hp
    · exact h
  unfold crcShift at h
  split at h
  · have h0 := congrArg (fun v : BitVec n => v.getLsbD 0) h
    simp [BitVec.getLsbD_xor, hp] at h0
  · next hm =>
    apply BitVec.eq_of_getLsbD_eq
    intro i hi
    by_cases hlast : i = n - 1
    · subst hlast
      have : c.msb = c.getLsbD (n - 1) := BitVec.msb_eq_getLsbD_last c
      simp only [Bool.not_eq_true] at hm
      rw [← this, hm]; simp
    · have h0 := congrArg (fun v : BitVec n => v.getLsbD (i + 1)) h
      simp only [BitVec.getLsbD_shiftLeft, BitVec.getLsbD_zero] at h0
      have h1 : i + 1 < n := by omega
      simpa [h1] using h0

theorem crcShifts_eq_zero {n : Nat} {poly c : BitVec n} (hp : poly.getLsbD 0 = true) {k : Nat}
    (h : crcShifts poly k c = 0#n) : c = 0#n := by
  induction k generalizing c with
  | zero => exact h
  | succ k ih => exact crcShift_eq_zero hp (ih h)

theorem xor_eq_zero {n : Nat} {a b : BitVec n} (h : a ^^^ b = 0#n) : a = b := by
  have := congrArg (· ^^^ b) h
  simpa [BitVec.xor_assoc] using this

/-- Shifting is one-to-one when the polynomial has bit 0 set. -/
theorem crcShifts_injective {n : Nat} {poly : BitVec n} (hp : poly.getLsbD 0 = true) (k : Nat) :
    Function.Injective (crcShifts poly k) := by
  intro a b h
  apply xor_eq_zero
  apply crcShifts_eq_zero hp (k := k)
  rw [crcShifts_xor, h, BitVec.xor_self]

theorem xor_left_injective {n : Nat} (c : BitVec n) : Function.Injective (c ^^^ ·) := by
  intro a b h
  have := congrArg (c ^^^ ·) h
  simpa [← BitVec.xor_assoc] using this

theorem xor_right_injective {n : Nat} (c : BitVec n) : Function.Injective (· ^^^ c) := by
  intro a b h
  have := congrArg (· ^^^ c) h
  simpa [BitVec.xor_assoc] using this

theorem reflectIf_injective {n : Nat} (r : Bool) : Function.Injective (reflectIf (n := n) r) := by
  cases r
  · exact fun a b h => h
  · intro a b h
    have h' : a.reverse = b.reverse := h
    simpa using congrArg BitVec.reverse h'

theorem shiftedByte_injective : Function.Injective (fun b : Byte => b.setWidth 16 <<< 8) := by
  intro a b h
  have h' := congrArg BitVec.toNat h
  simp only [BitVec.toNat_shiftLeft, BitVec.toNat_setWidth, Nat.shiftLeft_eq] at h'
  apply BitVec.eq_of_toNat_eq
  have := a.isLt
  have := b.isLt
  omega

/-- A loop whose body is one-to-one in the register and in the byte ends differently when one byte differs. -/
theorem foldl_set_ne {α β : Type} {f : α → β → α} (hc : ∀ b, Function.Injective fun c => f c b)
    (hb : ∀ c, Function.Injective (f c)) {s : List β} {k : Nat} {v : β} (hk : k < s.length) (hv : v ≠ s[k]) (c : α) :
    (s.set k v).foldl f c ≠ s.foldl f c := by
  have inj : ∀ (l : List β) (c c' : α), l.foldl f c = l.foldl f c' → c = c' := by
    intro l
    induction l with
    | nil => exact fun _ _ h => h
    | cons b l ih => exact fun c c' h => hc b (ih _ _ h)
  induction s generalizing k c with
  | nil => simp at hk
  | cons b s ih =>
    cases k with
    | zero => intro h; exact hv (hb c (inj s _ _ h))
    | succ k => exact ih (by simpa using hk) (by simpa using hv) _

theorem crc8_set_ne {cfg : Config} (hp : cfg.crc8Poly.getLsbD 0 = true) {s : List Byte} {k : Nat} {v : Byte}
    (hk : k < s.length) (hv : v ≠ s[k]) : crc8 cfg (s.set k v) ≠ crc8 cfg s := by
  intro h
  refine foldl_set_ne (f := crc8Byte cfg) (fun b => ?_) (fun c => ?_) hk hv cfg.crc8Init
    (reflectIf_injective _ (xor_right_injective _ h))
  · exact (crcShifts_injective hp 8).comp (xor_right_injective _)
  · exact (crcShifts_injective hp 8).comp ((xor_left_injective c).comp (reflectIf_injective _))

theorem crc16_set_ne {cfg : Config} (hp : cfg.crc16Poly.getLsbD 0 = true) {s : List Byte} {k : Nat} {v : Byte}
    (hk : k < s.length) (hv : v ≠ s[k]) : crc16 cfg (s.set k v) ≠ crc16 cfg s := by
  intro h
  refine foldl_set_ne (f := crc16Byte cfg) (fun b => ?_) (fun c => ?_) hk hv cfg.crc16Init
    (reflectIf_injective _ (xor_right_injective _ h))
  · exact (crcShifts_injective hp 8).comp (xor_right_injective _)
  · exact (crcShifts_injective hp 8).comp
      ((xor_left_injective c).comp (shiftedByte_injective.comp (reflectIf_injective _)))

end Sys2Proof.Machine
end

