-- ==== Sys2Proof/Laws/Reports.lean ====
section
/-! SUPPORT. The shared operation every command goes through: how it completes, what it reports, and how frames
compose. -/

namespace Sys2Proof.Machine

/-! ## Frames compose -/

theorem sameRegsExcept_refl (s : State) (l : List Reg) : sameRegsExcept s s l := fun _ _ => rfl

theorem sameRegsExcept_mono {s t : State} {a b : List Reg} (h : sameRegsExcept s t a) (hab : a ⊆ b) :
    sameRegsExcept s t b := fun r hr => h r fun hra => hr (hab hra)

theorem sameRegsExcept_trans {s t u : State} {a : List Reg} (h : sameRegsExcept s t a)
    (h' : sameRegsExcept t u a) : sameRegsExcept s u a := fun r hr => (h' r hr).trans (h r hr)

/-! ## Completion -/

/-- What a command answers when its body completes normally. -/
theorem runCommand_ok {w : Word} {body : State → State × Option Err} {s u : State}
    (h : body (s.startCommand w) = (u, none)) : runCommand w body s = .next u.finish := by
  simp [runCommand, h, State.complete]

/-- What a command answers when its body raises an error. -/
theorem runCommand_error {w : Word} {body : State → State × Option Err} {s u : State} {e : Err}
    (h : body (s.startCommand w) = (u, some e)) : runCommand w body s = .next (u.raise e) := by
  simp [runCommand, h, State.complete]

theorem reportsOk_finish {u : State} {w : Word} (h : u.ctl.cmd = w) : reportsOk w u.finish := by
  refine ⟨by simpa using h, ?_, ?_, ?_, ?_⟩ <;> simp [statusAfter, statusWord]

theorem statusAfter_code (c : ErrCode) : statusAfter c.num = 6 := by cases c <;> rfl

theorem reportsError_raise {u : State} {w : Word} {e : Err} (h : u.ctl.cmd = w) (hf : e.field < 256)
    (ho : e.ofs < 2 ^ 32) : reportsError w e.code.num.toNat e.field e.ofs (u.raise e) := by
  refine ⟨by simpa using h, ?_, ?_, ?_, ?_⟩
  · simp [statusAfter_code]
  · simp only [State.reg_errcode, State.raise_errcode, BitVec.toNat_setWidth]
    cases e.code <;> rfl
  · simp only [State.reg_errfield, State.raise_errfield, BitVec.toNat_setWidth, byteOf, BitVec.toNat_ofNat]
    omega
  · simp only [State.reg_errofs, State.raise_errofs, BitVec.toNat_ofNat]
    omega

/-- Starting a command touches CMD and STATUS only. -/
theorem sameRegsExcept_start (s : State) (w : Word) : sameRegsExcept s (s.startCommand w) reportRegs :=
  fun _ hr => State.reg_startCommand s w fun h => hr (by revert h; simp [reportRegs]; tauto)

theorem sameRegsExcept_finish (s : State) : sameRegsExcept s s.finish reportRegs :=
  fun _ hr => State.reg_finish s fun h => hr (by revert h; simp [reportRegs]; tauto)

theorem sameRegsExcept_raise (s : State) (e : Err) : sameRegsExcept s (s.raise e) reportRegs :=
  fun _ hr => State.reg_raise s e fun h => hr (by revert h; simp [reportRegs]; tauto)

/-- The frame of a command that raises an error before it has written anything. -/
theorem raise_start_frame (s : State) (w : Word) (e : Err) :
    sameRegsExcept s ((s.startCommand w).raise e) reportRegs ∧ sameBuffer .pb s ((s.startCommand w).raise e) ∧
      sameBuffer .fb s ((s.startCommand w).raise e) ∧ sameHost s ((s.startCommand w).raise e) :=
  ⟨sameRegsExcept_trans (sameRegsExcept_start s w) (sameRegsExcept_raise _ e), fun a => by simp, fun a => by simp,
    by simp [sameHost]⟩

/-- The buffer bytes after a command are those its body left, however it ended. -/
theorem runCommand_byteAt {w : Word} {body : State → State × Option Err} {s t : State}
    (h : runCommand w body s = .next t) (buf : Buf) (a : Nat) :
    t.byteAt buf a = (body (s.startCommand w)).1.byteAt buf a := by
  unfold runCommand at h
  cases h
  cases (body (s.startCommand w)).2 <;> simp [State.complete]

/-- The registers after a command, its report apart, are those its body left, however it ended. -/
theorem runCommand_reg {w : Word} {body : State → State × Option Err} {s t : State}
    (h : runCommand w body s = .next t) {r : Reg} (hr : r ∉ ([.errcode, .errfield, .errofs, .status] : List Reg)) :
    t.reg r = (body (s.startCommand w)).1.reg r := by
  unfold runCommand at h
  cases h
  cases (body (s.startCommand w)).2
  · exact State.reg_finish _ hr
  · exact State.reg_raise _ _ hr

/-- A command that raises an error before it has written anything: it completes, reports the error, and changes
nothing but the report. -/
theorem runCommand_raises {w : Word} {body : State → State × Option Err} {s : State} {e : Err}
    (h : body (s.startCommand w) = (s.startCommand w, some e)) (hf : e.field < 256) (ho : e.ofs < 2 ^ 32) :
    ∃ t, runCommand w body s = .next t ∧ reportsError w e.code.num.toNat e.field e.ofs t ∧
      sameRegsExcept s t reportRegs ∧ sameBuffer .pb s t ∧ sameBuffer .fb s t ∧ sameHost s t :=
  ⟨_, runCommand_error h, reportsError_raise rfl hf ho, raise_start_frame s w e⟩

/-- A command whose body completes normally, having written only the registers `l`: it completes, reports success,
changes no register but those and the report, and leaves in both buffers what its body left. -/
theorem runCommand_completes {w : Word} {body : State → State × Option Err} {s u : State} {l : List Reg}
    (h : body (s.startCommand w) = (u, none)) (hc : u.ctl.cmd = w)
    (hl : sameRegsExcept (s.startCommand w) u (l ++ reportRegs)) (hh : sameHost (s.startCommand w) u) :
    runCommand w body s = .next u.finish ∧ reportsOk w u.finish ∧ sameRegsExcept s u.finish (l ++ reportRegs) ∧
      sameHost s u.finish :=
  ⟨runCommand_ok h, reportsOk_finish hc,
    sameRegsExcept_trans (sameRegsExcept_mono (sameRegsExcept_start s w) (List.subset_append_right _ _))
      (sameRegsExcept_trans hl (sameRegsExcept_mono (sameRegsExcept_finish u) (List.subset_append_right _ _))),
    hh⟩

/-- The same for a body that raises an error after having written the registers `l`. -/
theorem runCommand_fails {w : Word} {body : State → State × Option Err} {s u : State} {e : Err} {l : List Reg}
    (h : body (s.startCommand w) = (u, some e)) (hf : e.field < 256) (ho : e.ofs < 2 ^ 32) (hc : u.ctl.cmd = w)
    (hl : sameRegsExcept (s.startCommand w) u (l ++ reportRegs)) (hh : sameHost (s.startCommand w) u) :
    runCommand w body s = .next (u.raise e) ∧ reportsError w e.code.num.toNat e.field e.ofs (u.raise e) ∧
      sameRegsExcept s (u.raise e) (l ++ reportRegs) ∧ sameHost s (u.raise e) :=
  ⟨runCommand_error h, reportsError_raise hc hf ho,
    sameRegsExcept_trans (sameRegsExcept_mono (sameRegsExcept_start s w) (List.subset_append_right _ _))
      (sameRegsExcept_trans hl (sameRegsExcept_mono (sameRegsExcept_raise u e) (List.subset_append_right _ _))),
    hh⟩

end Sys2Proof.Machine
end

