-- ==== Sys2Proof/Laws/HeaderCodec.lean ====
section
/-! SUPPORT. The Header Codec's functions: what a successful encode or decode means, and how a frame in FB reads as a
byte sequence (41_header_codec.md R66 to R71). -/

namespace Sys2Proof.Machine

/-! ## Bytes and halves -/

@[simp] theorem lowByte_toNat (v : Half) : (lowByte v).toNat = v.toNat % 256 := by simp [lowByte]
@[simp] theorem highByte_toNat (v : Half) : (highByte v).toNat = v.toNat / 256 := by
  have := v.isLt; simp only [highByte, BitVec.toNat_ofNat]; omega
@[simp] theorem halfOf_toNat (lo hi : Byte) : (halfOf lo hi).toNat = lo.toNat + 256 * hi.toNat := by
  have := lo.isLt; have := hi.isLt; simp only [halfOf, BitVec.toNat_ofNat]; omega

@[simp] theorem halfOf_low_high (v : Half) : halfOf (lowByte v) (highByte v) = v := by
  apply BitVec.eq_of_toNat_eq; simp; omega

@[simp] theorem lowByte_halfOf (lo hi : Byte) : lowByte (halfOf lo hi) = lo := by
  apply BitVec.eq_of_toNat_eq; have := lo.isLt; simp; omega

@[simp] theorem highByte_halfOf (lo hi : Byte) : highByte (halfOf lo hi) = hi := by
  apply BitVec.eq_of_toNat_eq; have := lo.isLt; simp; omega

@[simp] theorem byteOfSeq_cons_zero (b : Byte) (s : List Byte) : byteOfSeq (b :: s) 0 = b := rfl
@[simp] theorem byteOfSeq_cons_succ (b : Byte) (s : List Byte) (i : Nat) :
    byteOfSeq (b :: s) (i + 1) = byteOfSeq s i := rfl

theorem byteOfSeq_append_left {s t : List Byte} {i : Nat} (h : i < s.length) :
    byteOfSeq (s ++ t) i = byteOfSeq s i := by
  simp [byteOfSeq, List.getD_eq_getElem?_getD, List.getElem?_append_left h]

theorem byteOfSeq_append_right {s t : List Byte} {i : Nat} (h : s.length ≤ i) :
    byteOfSeq (s ++ t) i = byteOfSeq t (i - s.length) := by
  simp [byteOfSeq, List.getD_eq_getElem?_getD, List.getElem?_append_right h]

theorem byteOfSeq_eq_getElem {s : List Byte} {i : Nat} (h : i < s.length) : byteOfSeq s i = s[i] := by
  simp [byteOfSeq, h]

theorem byteOfSeq_set {s : List Byte} {k i : Nat} {v : Byte} (h : k < s.length) :
    byteOfSeq (s.set k v) i = if k = i then v else byteOfSeq s i := by
  simp only [byteOfSeq, List.getD_eq_getElem?_getD, List.getElem?_set]
  split
  · subst_vars; simp
  · rfl

theorem byteOfSeq_slice (s : State) (buf : Buf) (a n i : Nat) (h : i < n) :
    byteOfSeq (s.slice buf a n) i = s.byteAt buf (a + i) := State.slice_getD s buf a n i h

theorem halfOfSeq_toNat (s : List Byte) (i : Nat) :
    (halfOfSeq s i).toNat = (byteOfSeq s i).toNat + 256 * (byteOfSeq s (i + 1)).toNat := by simp [halfOfSeq]

/-! ## Encoding -/

@[simp] theorem impliedLength_hardware (rte : Byte) : impliedLength Config.hardware rte = 11 + 5 * rte.toNat := rfl

theorem impliedLength_legal {cfg : Config} (h : cfg.legal) (rte : Byte) :
    impliedLength cfg rte = 11 + 5 * rte.toNat := by
  simp [impliedLength, h.1, h.2.1]

theorem hardware_legal : Config.hardware.legal := by decide

/-- All eight checks of 41_header_codec.md R67 pass. -/
theorem encodeError_eq_none {cfg : Config} {h : Header} :
    encodeError cfg h = none ↔
      h.prf.toNat ≤ 3 ∧ h.rte.toNat ≤ 1 ∧ h.ena.toNat ≤ 3 ∧ h.cmp.toNat ≤ 1 ∧ h.pr.toNat ≤ 3 ∧
        h.prv ∈ cfg.supportedPrv ∧ h.prf = 0 ∧ h.hl.toNat = impliedLength cfg h.rte := by
  simp only [encodeError, ite_eq_right_iff, reduceCtorEq, imp_false, ite_eq_iff]
  constructor
  · intro hh
    simp only [not_lt, not_not, and_false, false_or, ne_eq] at hh
    tauto
  · intro hh
    simp only [not_lt, not_not, and_false, false_or, ne_eq]
    tauto

/-- What a successful encode means (41_header_codec.md R67, R68). -/
theorem hdrEnc_ok_iff {cfg : Config} {h : Header} {b : List Byte} :
    hdrEnc cfg h = .ok b ↔ encodeError cfg h = none ∧
      ∃ f, flagsPack h.prf h.rte h.ena h.cmp h.pr = .ok f ∧ b = headerBytes h f ++ [crc8 cfg (headerBytes h f)] := by
  simp only [hdrEnc]
  cases he : encodeError cfg h with
  | some e => simp
  | none =>
    cases hf : flagsPack h.prf h.rte h.ena h.cmp h.pr with
    | error e => simp
    | ok f => simp [eq_comm]

theorem hdrEnc_error_of {cfg : Config} {h : Header} {e : Err} (he : encodeError cfg h = some e) :
    hdrEnc cfg h = .error e := by simp [hdrEnc, he]

/-- The flag byte of an encodable header (42_bitfield.md R78). -/
def Header.flagByte (h : Header) : Byte :=
  byteOf (h.prf.toNat * 64 + h.rte.toNat * 32 + h.ena.toNat * 8 + h.cmp.toNat * 4 + h.pr.toNat)

/-- The bytes of an encodable header (41_header_codec.md R68). -/
theorem hdrEnc_of_encodable {cfg : Config} {h : Header} (he : encodeError cfg h = none) :
    hdrEnc cfg h = .ok (headerBytes h h.flagByte ++ [crc8 cfg (headerBytes h h.flagByte)]) := by
  obtain ⟨h0, h1, h2, h3, h4, -⟩ := encodeError_eq_none.1 he
  exact hdrEnc_ok_iff.2 ⟨he, _, flagsPack_ok h0 h1 h2 h3 h4, rfl⟩

theorem byte_eq_one {b : Byte} (h : b.toNat ≤ 1) (h0 : b ≠ 0) : b = 1 := by
  apply BitVec.eq_of_toNat_eq
  have : b.toNat ≠ 0 := fun hz => h0 (BitVec.eq_of_toNat_eq hz)
  show b.toNat = 1
  omega

theorem headerBytes_length (h : Header) (f : Byte) :
    (headerBytes h f).length = if h.rte = 1 then 15 else 10 := by
  simp only [headerBytes, routingBytes]
  split <;> rfl

/-- The encoder writes as many bytes as HL says (41_header_codec.md R68). -/
theorem hdrEnc_length {cfg : Config} {h : Header} {b : List Byte} (hc : cfg.legal) (hb : hdrEnc cfg h = .ok b) :
    b.length = h.hl.toNat ∧ (h.hl.toNat = 11 ∨ h.hl.toNat = 16) := by
  obtain ⟨he, f, -, rfl⟩ := hdrEnc_ok_iff.1 hb
  obtain ⟨-, h1, -, -, -, -, -, hl⟩ := encodeError_eq_none.1 he
  rw [impliedLength_legal hc] at hl
  rw [List.length_append, headerBytes_length, hl]
  split
  · next hr => rw [hr]; simp
  · next hr =>
    have : h.rte.toNat = 0 := by
      by_contra hne
      exact hr (byte_eq_one h1 fun h0 => hne (by rw [h0]; rfl))
    simp [this]

/-! ## Decoding -/

/-- All seven checks of 41_header_codec.md R70 pass. -/
theorem decodeError_eq_none {cfg : Config} {s : List Byte} :
    decodeError cfg s = none ↔
      4 ≤ s.length ∧ (byteOfSeq s 3).toNat ≠ 0 ∧ (byteOfSeq s 3).toNat ≤ s.length ∧
        crc8 cfg (s.take ((byteOfSeq s 3).toNat - 1)) = byteOfSeq s ((byteOfSeq s 3).toNat - 1) ∧
        byteOfSeq s 0 ∈ cfg.supportedPrv ∧ flagPrf (byteOfSeq s 2) = 0 ∧
        (byteOfSeq s 3).toNat = impliedLength cfg (flagRte (byteOfSeq s 2)) := by
  simp only [decodeError, ite_eq_right_iff, reduceCtorEq, imp_false, ite_eq_iff]
  constructor
  · intro hh
    simp only [not_lt, not_not, and_false, false_or, ne_eq] at hh
    tauto
  · intro hh
    simp only [not_lt, not_not, and_false, false_or, ne_eq]
    tauto

/-- What a successful decode means (41_header_codec.md R70). -/
theorem hdrDec_ok_iff {cfg : Config} {s : List Byte} {d : HeaderDecoded} :
    hdrDec cfg s = .ok d ↔ decodeError cfg s = none ∧
      d = { header := headerOfBytes s, hcs := byteOfSeq s ((byteOfSeq s 3).toNat - 1),
            consumed := (byteOfSeq s 3).toNat } := by
  simp only [hdrDec]
  cases decodeError cfg s with
  | some e => simp
  | none => simp [eq_comm]

theorem hdrDec_error_iff {cfg : Config} {s : List Byte} {e : Err} :
    hdrDec cfg s = .error e ↔ decodeError cfg s = some e := by
  simp only [hdrDec]
  cases decodeError cfg s <;> simp

/-- A decoded header has one of the two lengths, and its span is there. -/
theorem hdrDec_consumed {cfg : Config} {s : List Byte} {d : HeaderDecoded} (hc : cfg.legal)
    (h : hdrDec cfg s = .ok d) :
    (d.consumed = 11 ∨ d.consumed = 16) ∧ d.consumed ≤ s.length ∧ d.header.hl.toNat = d.consumed := by
  obtain ⟨hn, rfl⟩ := hdrDec_ok_iff.1 h
  obtain ⟨-, -, hle, -, -, -, hl⟩ := decodeError_eq_none.1 hn
  rw [impliedLength_legal hc, flagRte_toNat] at hl
  refine ⟨?_, hle, rfl⟩
  show (byteOfSeq s 3).toNat = 11 ∨ (byteOfSeq s 3).toNat = 16
  omega

end Sys2Proof.Machine
end

