-- ==== Sys2Proof/Laws/Values.lean ====
section
/-! SUPPORT. The registers as numbers: one lemma per register, so that a claim about `x[NAME]` turns into one about the
field that holds it. -/

namespace Sys2Proof.Machine

theorem setWidth_toNat_of_le {n m : Nat} (v : BitVec n) (h : n ≤ m) : (v.setWidth m).toNat = v.toNat :=
  BitVec.toNat_setWidth_of_le h

@[simp] theorem State.regNat_prv (s : State) : s.regNat .prv = s.hdr.prv.toNat := setWidth_toNat_of_le _ (by decide)
@[simp] theorem State.regNat_skid (s : State) : s.regNat .skid = s.hdr.skid.toNat := setWidth_toNat_of_le _ (by decide)
@[simp] theorem State.regNat_prf (s : State) : s.regNat .prf = s.hdr.prf.toNat := setWidth_toNat_of_le _ (by decide)
@[simp] theorem State.regNat_rte (s : State) : s.regNat .rte = s.hdr.rte.toNat := setWidth_toNat_of_le _ (by decide)
@[simp] theorem State.regNat_ena (s : State) : s.regNat .ena = s.hdr.ena.toNat := setWidth_toNat_of_le _ (by decide)
@[simp] theorem State.regNat_cmp (s : State) : s.regNat .cmp = s.hdr.cmp.toNat := setWidth_toNat_of_le _ (by decide)
@[simp] theorem State.regNat_pr (s : State) : s.regNat .pr = s.hdr.pr.toNat := setWidth_toNat_of_le _ (by decide)
@[simp] theorem State.regNat_hl (s : State) : s.regNat .hl = s.hdr.hl.toNat := setWidth_toNat_of_le _ (by decide)
@[simp] theorem State.regNat_he (s : State) : s.regNat .he = s.hdr.he.toNat := setWidth_toNat_of_le _ (by decide)
@[simp] theorem State.regNat_fdl (s : State) : s.regNat .fdl = s.hdr.fdl.toNat := setWidth_toNat_of_le _ (by decide)
@[simp] theorem State.regNat_pid (s : State) : s.regNat .pid = s.hdr.pid.toNat := setWidth_toNat_of_le _ (by decide)
@[simp] theorem State.regNat_pt (s : State) : s.regNat .pt = s.hdr.pt.toNat := setWidth_toNat_of_le _ (by decide)
@[simp] theorem State.regNat_pra (s : State) : s.regNat .pra = s.hdr.pra.toNat := setWidth_toNat_of_le _ (by decide)
@[simp] theorem State.regNat_rca (s : State) : s.regNat .rca = s.hdr.rca.toNat := setWidth_toNat_of_le _ (by decide)
@[simp] theorem State.regNat_ttl (s : State) : s.regNat .ttl = s.hdr.ttl.toNat := setWidth_toNat_of_le _ (by decide)
@[simp] theorem State.regNat_hcs (s : State) : s.regNat .hcs = s.hdr.hcs.toNat := setWidth_toNat_of_le _ (by decide)
@[simp] theorem State.regNat_sfrcs (s : State) : s.regNat .sfrcs = s.hdr.sfrcs.toNat := setWidth_toNat_of_le _ (by decide)
@[simp] theorem State.regNat_flags (s : State) : s.regNat .flags = s.hdr.flags.toNat := setWidth_toNat_of_le _ (by decide)
@[simp] theorem State.regNat_plen (s : State) : s.regNat .plen = s.rng.plen.toNat := setWidth_toNat_of_le _ (by decide)
@[simp] theorem State.regNat_flen (s : State) : s.regNat .flen = s.rng.flen.toNat := setWidth_toNat_of_le _ (by decide)
@[simp] theorem State.regNat_rs (s : State) : s.regNat .rs = s.rng.rs.toNat := setWidth_toNat_of_le _ (by decide)
@[simp] theorem State.regNat_rl (s : State) : s.regNat .rl = s.rng.rl.toNat := setWidth_toNat_of_le _ (by decide)
@[simp] theorem State.regNat_crc8r (s : State) : s.regNat .crc8r = s.rng.crc8r.toNat := setWidth_toNat_of_le _ (by decide)
@[simp] theorem State.regNat_crc16r (s : State) : s.regNat .crc16r = s.rng.crc16r.toNat := setWidth_toNat_of_le _ (by decide)
@[simp] theorem State.regNat_bfn (s : State) : s.regNat .bfn = s.bf.bfn.toNat := setWidth_toNat_of_le _ (by decide)
@[simp] theorem State.regNat_bfbyte (s : State) : s.regNat .bfbyte = s.bf.bfbyte.toNat := setWidth_toNat_of_le _ (by decide)
@[simp] theorem State.regNat_bfv0 (s : State) : s.regNat .bfv0 = s.bf.bfv0.toNat := setWidth_toNat_of_le _ (by decide)
@[simp] theorem State.regNat_bfv1 (s : State) : s.regNat .bfv1 = s.bf.bfv1.toNat := setWidth_toNat_of_le _ (by decide)
@[simp] theorem State.regNat_bfv2 (s : State) : s.regNat .bfv2 = s.bf.bfv2.toNat := setWidth_toNat_of_le _ (by decide)
@[simp] theorem State.regNat_bfv3 (s : State) : s.regNat .bfv3 = s.bf.bfv3.toNat := setWidth_toNat_of_le _ (by decide)
@[simp] theorem State.regNat_bfv4 (s : State) : s.regNat .bfv4 = s.bf.bfv4.toNat := setWidth_toNat_of_le _ (by decide)
@[simp] theorem State.regNat_bfv5 (s : State) : s.regNat .bfv5 = s.bf.bfv5.toNat := setWidth_toNat_of_le _ (by decide)
@[simp] theorem State.regNat_bfv6 (s : State) : s.regNat .bfv6 = s.bf.bfv6.toNat := setWidth_toNat_of_le _ (by decide)
@[simp] theorem State.regNat_bfv7 (s : State) : s.regNat .bfv7 = s.bf.bfv7.toNat := setWidth_toNat_of_le _ (by decide)
@[simp] theorem State.regNat_bfw0 (s : State) : s.regNat .bfw0 = s.bf.bfw0.toNat := setWidth_toNat_of_le _ (by decide)
@[simp] theorem State.regNat_bfw1 (s : State) : s.regNat .bfw1 = s.bf.bfw1.toNat := setWidth_toNat_of_le _ (by decide)
@[simp] theorem State.regNat_bfw2 (s : State) : s.regNat .bfw2 = s.bf.bfw2.toNat := setWidth_toNat_of_le _ (by decide)
@[simp] theorem State.regNat_bfw3 (s : State) : s.regNat .bfw3 = s.bf.bfw3.toNat := setWidth_toNat_of_le _ (by decide)
@[simp] theorem State.regNat_bfw4 (s : State) : s.regNat .bfw4 = s.bf.bfw4.toNat := setWidth_toNat_of_le _ (by decide)
@[simp] theorem State.regNat_bfw5 (s : State) : s.regNat .bfw5 = s.bf.bfw5.toNat := setWidth_toNat_of_le _ (by decide)
@[simp] theorem State.regNat_bfw6 (s : State) : s.regNat .bfw6 = s.bf.bfw6.toNat := setWidth_toNat_of_le _ (by decide)
@[simp] theorem State.regNat_bfw7 (s : State) : s.regNat .bfw7 = s.bf.bfw7.toNat := setWidth_toNat_of_le _ (by decide)
@[simp] theorem State.regNat_cmd (s : State) : s.regNat .cmd = s.ctl.cmd.toNat := rfl
@[simp] theorem State.regNat_status (s : State) : s.regNat .status = s.ctl.status.toNat := setWidth_toNat_of_le _ (by decide)
@[simp] theorem State.regNat_errcode (s : State) : s.regNat .errcode = s.ctl.errcode.toNat := setWidth_toNat_of_le _ (by decide)
@[simp] theorem State.regNat_errfield (s : State) : s.regNat .errfield = s.ctl.errfield.toNat := setWidth_toNat_of_le _ (by decide)
@[simp] theorem State.regNat_errofs (s : State) : s.regNat .errofs = s.ctl.errofs.toNat := rfl
@[simp] theorem State.regNat_phase (s : State) : s.regNat .phase = s.ctl.phase.toNat := setWidth_toNat_of_le _ (by decide)
@[simp] theorem State.regNat_cur (s : State) : s.regNat .cur = s.ctl.cur.toNat := setWidth_toNat_of_le _ (by decide)

theorem State.regNat_congr {s t : State} {r : Reg} (h : t.reg r = s.reg r) : t.regNat r = s.regNat r := by
  rw [State.regNat, State.regNat, h]

end Sys2Proof.Machine
end

