-- ==== Sys2Proof/Laws/PacketCodec.lean ====
section
/-! SUPPORT. The frame in FB as a byte sequence, and what the functions of the Packet Codec can answer
(45_packet_codec.md R94 to R97). -/

namespace Sys2Proof.Machine

/-! ## The frame and the payload as sequences -/

@[simp] theorem frame_length (s : State) : s.frame.length = s.rng.flen.toNat := State.slice_length _ _ _ _

@[simp] theorem payload_length (s : State) : s.payload.length = s.rng.plen.toNat := State.slice_length _ _ _ _

theorem frame_byte (s : State) {i : Nat} (h : i < s.rng.flen.toNat) : byteOfSeq s.frame i = s.byteAt .fb i := by
  rw [State.frame, byteOfSeq_slice _ _ _ _ _ (by exact h), Nat.zero_add]

theorem frame_take (s : State) {k : Nat} (h : k ≤ s.rng.flen.toNat) : s.frame.take k = s.slice .fb 0 k :=
  State.slice_take _ _ _ _ _ h

theorem frame_half (s : State) {i : Nat} (h : i + 1 < s.rng.flen.toNat) :
    (halfOfSeq s.frame i).toNat = s.fbHalf i := by
  rw [halfOfSeq_toNat, frame_byte s h, frame_byte s (by omega)]; rfl

/-- A span of the frame is the same span of FB. -/
theorem frame_span (s : State) {a n : Nat} (h : a + n ≤ s.rng.flen.toNat) :
    (s.frame.drop a).take n = s.slice .fb a n := by
  rw [State.frame, State.slice_drop, Nat.zero_add, State.slice_take _ _ _ _ _ (by show n ≤ s.rng.flen.toNat - a; omega)]

/-- The frame depends on nothing a start, a phase or a header load changes. -/
@[simp] theorem frame_startCommand (s : State) (w : Word) : (s.startCommand w).frame = s.frame := by
  simp [State.frame, State.frameLength]

@[simp] theorem frame_setPhase (s : State) (p : Phase) (n : Nat) : (s.setPhase p n).frame = s.frame := by
  simp [State.frame, State.frameLength]

theorem byte_eq_one_iff (b : Byte) : b = 1 ↔ b.toNat = 1 := by rw [← BitVec.toNat_inj]; rfl

theorem byte_eq_zero_iff (b : Byte) : b = 0 ↔ b.toNat = 0 := by rw [← BitVec.toNat_inj]; rfl

/-! ## The decoder on the frame in FB -/

/-- The decoder accepts the frame in FB exactly when FB holds a decodable header (41_header_codec.md R70). -/
theorem decodeError_frame {s : State} (hf : s.rng.flen.toNat ≤ 65553) :
    decodeError Config.hardware s.frame = none ↔ s.headerGood := by
  rw [decodeError_eq_none, frame_length, hardware_supportedPrv, List.mem_singleton, impliedLength_hardware,
    byte_eq_one_iff, byte_eq_zero_iff, flagPrf_toNat, flagRte_toNat]
  simp only [State.headerGood, State.spanThere, State.headerChecksumGood, State.versionGood, State.lengthGood,
    State.fbNat, State.regNat_flen]
  by_cases h4 : 4 ≤ s.rng.flen.toNat
  · rw [frame_byte s (by omega : 3 < _), frame_byte s (by omega : 2 < _), frame_byte s (by omega : 0 < _)]
    by_cases h3 : (s.byteAt .fb 3).toNat ≠ 0 ∧ (s.byteAt .fb 3).toNat ≤ s.rng.flen.toNat
    · rw [frame_byte s (by omega), frame_take s (by omega)]
      exact ⟨fun ⟨a, b, c, d, e, f, g⟩ => ⟨⟨a, hf, b, c⟩, d, ⟨e, f⟩, g⟩,
        fun ⟨⟨a, _, b, c⟩, d, ⟨e, f⟩, g⟩ => ⟨a, b, c, d, e, f, g⟩⟩
    · exact ⟨fun ⟨_, b, c, _⟩ => absurd ⟨b, c⟩ h3, fun ⟨⟨_, _, b, c⟩, _⟩ => absurd ⟨b, c⟩ h3⟩
  · exact ⟨fun h => absurd h.1 h4, fun h => absurd h.1.1 h4⟩

/-- What the decoder gives for a decodable header in FB. -/
theorem hdrDec_frame {s : State} (h : s.headerGood) :
    hdrDec Config.hardware s.frame =
      .ok { header := headerOfBytes s.frame, hcs := s.byteAt .fb (s.fbNat 3 - 1), consumed := s.fbNat 3 } := by
  obtain ⟨h4, hf, h0, hs⟩ := h.1
  simp only [State.fbNat, State.regNat_flen] at h4 hf h0 hs
  refine hdrDec_ok_iff.2 ⟨(decodeError_frame hf).2 h, ?_⟩
  rw [frame_byte s (by omega : 3 < _), frame_byte s (by omega)]; rfl

/-! ## The payload -/

/-- What steps 2 to 5 of 45_packet_codec.md R96 can answer, and when. -/
theorem decodePayload_cases (cfg : Config) (s : List Byte) (hl fdl : Nat) :
    (s.length < frameLen hl fdl ∧ decodePayload cfg s hl fdl =
      .short ⟨.truncated, if s.length < hl + fdl then payloadRegion else regNum .sfrcs, frameLen hl fdl⟩) ∨
    (frameLen hl fdl ≤ s.length ∧ fdl = 0 ∧ decodePayload cfg s hl fdl = .valid [] 0 (frameLen hl fdl)) ∨
    (frameLen hl fdl ≤ s.length ∧ 0 < fdl ∧ crc16 cfg ((s.drop hl).take fdl) ≠ halfOfSeq s (hl + fdl) ∧
      decodePayload cfg s hl fdl = .mismatch ((s.drop hl).take fdl) (halfOfSeq s (hl + fdl))
        ⟨.payloadChecksumMismatch, regNum .sfrcs, hl + fdl⟩) ∨
    (frameLen hl fdl ≤ s.length ∧ 0 < fdl ∧ crc16 cfg ((s.drop hl).take fdl) = halfOfSeq s (hl + fdl) ∧
      decodePayload cfg s hl fdl =
        .valid ((s.drop hl).take fdl) (halfOfSeq s (hl + fdl)) (frameLen hl fdl)) := by
  simp only [decodePayload]
  split
  · exact .inl ⟨‹_›, rfl⟩
  · split
    · exact .inr (.inl ⟨by omega, ‹_›, rfl⟩)
    · split
      · exact .inr (.inr (.inl ⟨by omega, by omega, ‹_›, rfl⟩))
      · exact .inr (.inr (.inr ⟨by omega, by omega, not_not.1 ‹_›, rfl⟩))

theorem checksumBytes_length (cfg : Config) (p : List Byte) :
    (checksumBytes cfg p).length = if 0 < p.length then 2 else 0 := by
  simp only [checksumBytes]; split <;> rfl

/-- What a successful `pkt_enc` means (45_packet_codec.md R94). -/
theorem pktEnc_ok_iff {cfg : Config} {h : Header} {p f : List Byte} :
    pktEnc cfg h p = .ok f ↔
      ∃ b, hdrEnc cfg (h.withLength p.length) = .ok b ∧ f = b ++ p ++ checksumBytes cfg p := by
  simp only [pktEnc]
  cases hdrEnc cfg (h.withLength p.length) <;> simp [eq_comm]

theorem pktEnc_error_iff {cfg : Config} {h : Header} {p : List Byte} {e : Err} :
    pktEnc cfg h p = .error e ↔ hdrEnc cfg (h.withLength p.length) = .error e := by
  simp only [pktEnc]
  cases hdrEnc cfg (h.withLength p.length) <;> simp

end Sys2Proof.Machine
end

