-- ==== Sys2Proof/Laws/PerInstr.lean ====
section
/-! SUPPORT. Per-instruction laws: for every command, its word decodes back to it and has no reserved bit set
(30_encoding.md R52, R53). -/

namespace Sys2Proof.Laws

/-- The word of a command is well formed and decodes to that command and to no other. -/
def DecodeEncode.Statement (i : Instr) : Prop :=
  i.wellFormed = true ∧ decode (encode i) = .ok i ∧ reservedOf (encode i) = 0

theorem DecodeEncode.nop : DecodeEncode.Statement .nop := ⟨rfl, rfl, rfl⟩
theorem DecodeEncode.crc8 : DecodeEncode.Statement .crc8 := ⟨rfl, rfl, rfl⟩
theorem DecodeEncode.crc16 : DecodeEncode.Statement .crc16 := ⟨rfl, rfl, rfl⟩
theorem DecodeEncode.bfpack : DecodeEncode.Statement .bfpack := ⟨rfl, rfl, rfl⟩
theorem DecodeEncode.bfunpack : DecodeEncode.Statement .bfunpack := ⟨rfl, rfl, rfl⟩
theorem DecodeEncode.flgpack : DecodeEncode.Statement .flgpack := ⟨rfl, rfl, rfl⟩
theorem DecodeEncode.flgunpack : DecodeEncode.Statement .flgunpack := ⟨rfl, rfl, rfl⟩
theorem DecodeEncode.hdrenc : DecodeEncode.Statement .hdrenc := ⟨rfl, rfl, rfl⟩
theorem DecodeEncode.hdrdec : DecodeEncode.Statement .hdrdec := ⟨rfl, rfl, rfl⟩
theorem DecodeEncode.pktenc : DecodeEncode.Statement .pktenc := ⟨rfl, rfl, rfl⟩
theorem DecodeEncode.pktdec : DecodeEncode.Statement .pktdec := ⟨rfl, rfl, rfl⟩
theorem DecodeEncode.clr : DecodeEncode.Statement .clr := ⟨rfl, rfl, rfl⟩

end Sys2Proof.Laws
end

