-- ==== Sys2Proof/Tests/Slice0.lean ====
section
/-! SUPPORT. Our own tests. Expected values come from spec/: the opcode map (30_encoding.md R53), the register table
(10_state.md R17) and the vectors of 95_test_vectors.md, cited by their ids. Then one witness for each statement that
has hypotheses. -/

namespace Sys2Proof.Tests

open Sys2Proof Sys2Proof.Machine

/-! ## Small states -/

/-- The state after the host has written registers. -/
def setRegs (s : State) (l : List (Reg × Word)) : State := l.foldl (fun t p => t.writeReg p.1 p.2) s

/-- Reset, with registers written by the host. -/
def regs (l : List (Reg × Word)) : State := setRegs .reset l

/-- Reset, with bytes in FB from offset 0, and FLEN. -/
def frameState (b : List Byte) : State := setRegs (State.reset.store .fb 0 b) [(.flen, BitVec.ofNat 32 b.length)]

/-- The state a command leaves. -/
def after (i : Instr) (s : State) : State :=
  match exec i s with
  | .next t => t
  | .fault _ => s
  | .refused _ => s

/-- Reset, with accesses the host is going to make. -/
def script (l : List HostAccess) : State := State.reset.withPending l

theorem exec_after (i : Instr) (s : State) : exec i s = .next (after i s) := by cases i <;> rfl

/-- The error report: STATUS, ERRCODE, ERRFIELD, ERROFS. -/
def report (s : State) : List Word := [s.reg .status, s.reg .errcode, s.reg .errfield, s.reg .errofs]

/-- Frame F1 of 95_test_vectors.md section 6. -/
def f1 : List Byte := [0x01, 0x00, 0x00, 0x0B, 0x00, 0x03, 0x00, 0x01, 0x00, 0x01, 0x27, 0x01, 0x02, 0x03, 0xAD, 0xAD]

/-- Frame F2. -/
def f2 : List Byte :=
  [0x01, 0x00, 0x20, 0x10, 0x00, 0x03, 0x00, 0x01, 0x00, 0x01, 0x64, 0x00, 0xC8, 0x00, 0x05, 0x64, 0x01, 0x02, 0x03,
    0xAD, 0xAD]

/-- Frame F3. -/
def f3 : List Byte := [0x01, 0x00, 0x00, 0x0B, 0x00, 0x00, 0x00, 0xFF, 0xFF, 0x00, 0xDE]

/-- The operands of W1 without the payload. -/
def w1 : List (Reg × Word) := [(.prv, 1), (.hl, 11), (.pid, 1), (.pt, 1)]

/-- The operands of W2 without the payload. -/
def w2 : List (Reg × Word) :=
  [(.prv, 1), (.rte, 1), (.hl, 16), (.pid, 1), (.pt, 1), (.pra, 100), (.rca, 200), (.ttl, 5)]

/-- The operands and the payload of W1. -/
def packet1 : State := setRegs (State.reset.store .pb 0 [1, 2, 3]) ((.plen, 3) :: w1)

/-- Vector B1: the flag-byte layout. -/
def pairs1 : List (Reg × Word) :=
  [(.bfn, 5), (.bfw0, 2), (.bfw1, 1), (.bfw2, 2), (.bfw3, 1), (.bfw4, 2), (.bfv1, 1), (.bfv2, 3), (.bfv3, 1), (.bfv4, 2)]

/-! ## Decoding: the opcode map of R53, word by word -/

theorem test_decode_nop : decode 0b00000000000000000000000000000000#32 = .ok .nop := rfl
theorem test_decode_crc8 : decode 0b00000000000000000000000000000001#32 = .ok .crc8 := rfl
theorem test_decode_crc16 : decode 0b00000000000000000000000000000010#32 = .ok .crc16 := rfl
theorem test_decode_bfpack : decode 0b00000000000000000000000000000011#32 = .ok .bfpack := rfl
theorem test_decode_bfunpack : decode 0b00000000000000000000000000000100#32 = .ok .bfunpack := rfl
theorem test_decode_flgpack : decode 0b00000000000000000000000000000101#32 = .ok .flgpack := rfl
theorem test_decode_flgunpack : decode 0b00000000000000000000000000000110#32 = .ok .flgunpack := rfl
theorem test_decode_hdrenc : decode 0b00000000000000000000000000010000#32 = .ok .hdrenc := rfl
theorem test_decode_hdrdec : decode 0b00000000000000000000000000010001#32 = .ok .hdrdec := rfl
theorem test_decode_pktenc : decode 0b00000000000000000000000000100000#32 = .ok .pktenc := rfl
theorem test_decode_pktdec : decode 0b00000000000000000000000000100001#32 = .ok .pktdec := rfl
theorem test_decode_clr : decode 0b00000000000000000000000001111111#32 = .ok .clr := rfl
theorem test_decode_unassigned : decode 0x00000012#32 = .error .unassignedOpcode := rfl
theorem test_decode_reserved : decode 0x00000101#32 = .error .reservedBitsSet := rfl
theorem test_decode_short : decodeBytes [0x10, 0x00, 0x00] = .error .notOneWord := rfl
theorem test_decode_little_endian : decodeBytes [0x10, 0x00, 0x00, 0x00] = .ok .hdrenc := rfl
theorem test_decode_table_word : decodeTableWord 32 0x7F = some .clr := by decide

/-! ## Well-formedness: an ill-formed term for each check -/

theorem test_wf_word_unaligned : (HostAccess.read .word 0x000A9).wellFormed = false := by decide
theorem test_wf_word_reserved_unaligned : (HostAccess.read .word 0x000C6).wellFormed = false := by decide
theorem test_wf_byte_in_registers : (HostAccess.write .byte 0x000A8 0).wellFormed = false := by decide
theorem test_wf_half_in_registers : (HostAccess.read .half 0x000AC).wellFormed = false := by decide
theorem test_wf_half_in_pb : (HostAccess.write .half 0x10000 0).wellFormed = false := by decide
theorem test_wf_word_in_fb : (HostAccess.read .word 0x20000).wellFormed = false := by decide
theorem test_wf_half_into_pb : (HostAccess.read .half 0x0FFFF).wellFormed = false := by decide
theorem test_wf_half_beyond_aperture : (HostAccess.read .half 0x3FFFF).wellFormed = false := by decide
theorem test_wf_command_write : (HostAccess.write .word 0x000A8 0x10).wellFormed = true := by decide
theorem test_wf_config_header_length : ¬Config.legal { Config.hardware with hlRouted := 14 } := by decide
theorem test_wf_config_base_length : ¬Config.legal { Config.hardware with hlBase := 10 } := by decide
theorem test_wf_config_payload_size : ¬Config.legal { Config.hardware with pbSize := 65536 } := by decide
theorem test_wf_config_frame_small : ¬Config.legal { Config.hardware with fbSize := 15 } := by decide
theorem test_wf_config_frame_large : ¬Config.legal { Config.hardware with fbSize := 65554 } := by decide

/-! ## The register table and the bus map -/

theorem test_register_count : allRegs.length = 49 := rfl
theorem test_register_numbers : allRegs.map regNum = List.range 49 := by decide
theorem test_reset_memory_canonical : State.reset.pb.wf ∧ State.reset.fb.wf := by decide
theorem test_bus_last_register : busTarget .word 0x000C0 = some (.reg .cur) := by decide
theorem test_bus_last_pb : busTarget .byte 0x1FFFE = some (.byte .pb 65534) := by decide
theorem test_bus_last_fb : busTarget .byte 0x30010 = some (.byte .fb 65552) := by decide
theorem test_bus_gap : busTarget .byte 0x1FFFF = some .reserved := by decide

/-! ## CRC tables and check values (95_test_vectors.md sections 2 and 3) -/

theorem test_t8_first : crc8Table Config.hardware 0x01 = 0x31 := by decide +kernel
theorem test_t8_last : crc8Table Config.hardware 0xFF = 0xAC := by decide +kernel
theorem test_t16_first : crc16Table Config.hardware 0x01 = 0x1021 := by decide +kernel
theorem test_t16_last : crc16Table Config.hardware 0xFF = 0x1EF0 := by decide +kernel
theorem test_crc8_check :
    crc8 Config.hardware [0x31, 0x32, 0x33, 0x34, 0x35, 0x36, 0x37, 0x38, 0x39] = 0xF7 := by decide +kernel
theorem test_crc16_check :
    crc16 Config.hardware [0x31, 0x32, 0x33, 0x34, 0x35, 0x36, 0x37, 0x38, 0x39] = 0x29B1 := by decide +kernel

/-! ## One step of each command -/

-- S1
theorem test_nop : report (after .nop .reset) = [2, 0, 0, 0] ∧ (after .nop .reset).reg .cmd = 0 := by decide +kernel
-- P5: CLR leaves STATUS 0 and the bytes of FB.
theorem test_clr :
    report (after .clr (frameState f1)) = [0, 0, 0, 0] ∧ (after .clr (frameState f1)).byteAt .fb 10 = 0x27 := by
  decide +kernel
-- K11, K16
theorem test_crc8 : (after .crc8 (setRegs (frameState f1) [(.rl, 10)])).reg .crc8r = 0x27 := by decide +kernel
theorem test_crc8_range :
    report (after .crc8 (regs [(.rs, 131071), (.rl, 131071)])) = [6, 9, 21, 262142] := by decide +kernel
-- L10, L13
theorem test_crc16 : (after .crc16 (setRegs (frameState f1) [(.rs, 11), (.rl, 3)])).reg .crc16r = 0xADAD := by
  decide +kernel
theorem test_crc16_range : report (after .crc16 (regs [(.rs, 65552), (.rl, 2)])) = [6, 9, 21, 65554] := by
  decide +kernel
-- B1, B7
theorem test_bfpack : (after .bfpack (regs pairs1)).reg .bfbyte = 0x3E := by decide +kernel
theorem test_bfpack_overflow :
    report (after .bfpack (regs (pairs1 ++ [(.bfv0, 4), (.bfv1, 2), (.bfv4, 4)]))) = [6, 6, 26, 0] := by decide +kernel
-- B19, B21
theorem test_bfunpack :
    (after .bfunpack (regs [(.bfn, 2), (.bfw0, 4), (.bfw1, 4), (.bfbyte, 0xF0), (.bfv1, 9), (.bfv2, 9)])).allValues =
      [15, 0, 0, 0, 0, 0, 0, 0] := by decide +kernel
theorem test_bfunpack_widths :
    report (after .bfunpack (regs [(.bfn, 2), (.bfw0, 4), (.bfw1, 3)])) = [6, 7, 24, 7] := by decide +kernel
-- B24, B31
theorem test_flgpack :
    (after .flgpack (regs [(.rte, 1), (.ena, 3), (.cmp, 1), (.pr, 2)])).reg .flags = 0x3E := by decide +kernel
theorem test_flgpack_overflow : report (after .flgpack (regs [(.prf, 4), (.cmp, 2)])) = [6, 6, 2, 0] := by
  decide +kernel
-- B38, B37
theorem test_flgunpack :
    ([.prf, .rte, .ena, .cmp, .pr].map (after .flgunpack (regs [(.flags, 0x1B)])).reg) = [0, 0, 3, 0, 3] := by
  decide +kernel
theorem test_flgunpack_prf : (after .flgunpack (regs [(.flags, 0x80)])).reg .prf = 2 := by decide +kernel
-- H2, H16
theorem test_hdrenc :
    (after .hdrenc (regs ((.fdl, 3) :: w2))).slice .fb 0 16 = f2.take 16 := by decide +kernel
theorem test_hdrenc_order : report (after .hdrenc (regs [(.prv, 2), (.hl, 11), (.prf, 1)])) = [6, 1, 0, 0] := by
  decide +kernel
-- E2, E16
theorem test_hdrdec :
    ([.rte, .hl, .fdl, .pra, .rca, .ttl, .hcs, .phase, .cur].map (after .hdrdec (frameState (f2.take 16))).reg) =
      [1, 16, 3, 100, 200, 5, 0x64, 1, 16] := by decide +kernel
theorem test_hdrdec_length : report (after .hdrdec (frameState (f1.set 3 0x0F))) = [6, 3, 15, 14] := by decide +kernel
-- Q2, Q4
theorem test_pktenc :
    (after .pktenc (setRegs packet1 [(.fdl, 999)])).slice .fb 0 16 = f1 := by decide +kernel
theorem test_pktenc_empty :
    ([.flen, .sfrcs, .hcs].map (after .pktenc (regs [(.prv, 1), (.hl, 11), (.pid, 0xFFFF)])).reg) = [11, 0, 0xDE] := by
  decide +kernel
-- X1, X20
theorem test_pktdec :
    (after .pktdec (frameState f1)).slice .pb 0 3 = [1, 2, 3] ∧ (after .pktdec (frameState f1)).reg .phase = 3 := by
  decide +kernel
theorem test_pktdec_mismatch :
    report (after .pktdec (frameState ((f1.set 5 2).set 10 0xF4))) = [6, 4, 16, 13] ∧
      (after .pktdec (frameState ((f1.set 5 2).set 10 0xF4))).reg .cur = 15 := by decide +kernel

/-! ## Witnesses: concrete states and operands that meet the hypotheses of each statement, at the bounds of its clauses -/

theorem witness_EncodedCommandsDecodeBack : Instr.clr.wellFormed = true := rfl

theorem witness_StepRunsTheDecodedCommand :
    (script [.write .word 0x000A8 0x10]).pending = .write .word 0x000A8 0x10 :: [] ∧ decode 0x10 = .ok .hdrenc ∧
      Instr.hdrenc.wellFormed = true := ⟨rfl, rfl, rfl⟩

theorem witness_IllegalWordChangesOnlyTheReport :
    (script [.write .word 0x000A8 0x12]).pending = .write .word 0x000A8 0x12 :: [] ∧
      ((0x12 : Word) ∉ [0x00000000#32, 0x00000001#32, 0x00000002#32, 0x00000003#32, 0x00000004#32, 0x00000005#32,
        0x00000006#32, 0x00000010#32, 0x00000011#32, 0x00000020#32, 0x00000021#32, 0x0000007F#32]) :=
  ⟨rfl, by decide⟩

theorem witness_IdleStepHoldsState : State.reset.pending = [] := rfl

theorem witness_HostReadsARegister :
    (script [.read .word 0x000C0]).pending = .read .word (BitVec.ofNat 18 (4 * regNum .cur)) :: [] := by decide

theorem witness_HostWriteKeepsTheLowBits :
    (.bfw7 ∉ ([.crc8r, .crc16r, .status, .errcode, .errfield, .errofs, .phase, .cur, .cmd] : List Reg)) ∧
      (script [.write .word 0x000A4 0xFF]).pending = .write .word (BitVec.ofNat 18 (4 * regNum .bfw7)) 0xFF :: [] := by
  decide

theorem witness_HostWriteToReadOnlyHasNoEffect :
    (.cur ∈ ([.crc8r, .crc16r, .status, .errcode, .errfield, .errofs, .phase, .cur] : List Reg)) ∧
      (script [.write .word 0x000C0 7]).pending = .write .word (BitVec.ofNat 18 (4 * regNum .cur)) 7 :: [] := by
  decide

theorem witness_HostWritesABufferByte_pb : 65534 < 65535 ∧
    (script [.write .byte 0x1FFFE 7]).pending = .write .byte (BitVec.ofNat 18 (0x10000 + 65534)) 7 :: [] :=
  ⟨by decide, rfl⟩

theorem witness_HostWritesABufferByte_fb : 65552 < 65553 ∧
    (script [.write .byte 0x30010 7]).pending = .write .byte (BitVec.ofNat 18 (0x20000 + 65552)) 7 :: [] :=
  ⟨by decide, rfl⟩

theorem witness_HostReadsABufferByte_pb : 65534 < 65535 ∧
    (script [.read .byte 0x1FFFE]).pending = .read .byte (BitVec.ofNat 18 (0x10000 + 65534)) :: [] :=
  ⟨by decide, rfl⟩

theorem witness_HostReadsABufferByte_fb : 65552 < 65553 ∧
    (script [.read .byte 0x30010]).pending = .read .byte (BitVec.ofNat 18 (0x20000 + 65552)) :: [] :=
  ⟨by decide, rfl⟩

/-- Every range of reserved addresses at both ends. -/
theorem witness_ReservedAddressesReadZero :
    (∀ p ∈ [(AccessSize.byte, 0x000C4), (.byte, 0x0FFFF), (.byte, 0x1FFFF), (.byte, 0x30011), (.byte, 0x3FFFF),
        (.half, 0x000C4), (.half, 0x30011), (.half, 0x3FFFE), (.word, 0x000C4), (.word, 0x0FFFC), (.word, 0x30014),
        (.word, 0x3FFFC)],
      (∀ i, i < accessBytes p.1 → reservedAddress (p.2 + i)) ∧ (p.1 = .word → p.2 % 4 = 0)) ∧
    (script [.read .word 0x3FFFC]).pending = .read .word 0x3FFFC :: [] ∧ (0x3FFFC : BusAddr).toNat = 0x3FFFC ∧
    (0x3FFFF : BusAddr).toNat = 0x3FFFF ∧ (script [.read .byte 0x3FFFF]).pending = .read .byte 0x3FFFF :: [] ∧
    (0x000C4 : BusAddr).toNat = 0x000C4 ∧ (script [.write .byte 0x000C4 1]).pending = .write .byte 0x000C4 1 :: [] :=
  ⟨by decide, rfl, rfl, rfl, rfl, rfl, rfl⟩

/-- Every kind of access outside the interface, at the bounds of the windows. -/
theorem witness_AccessOutsideTheInterfaceIsRefused :
    (∀ p ∈ [(AccessSize.word, 0x000AA), (.word, 0x3FFFF), (.byte, 0x00000), (.half, 0x000C3),
        (.half, 0x10000), (.word, 0x1FFFC), (.word, 0x20000), (.half, 0x30010)],
      (p.1 = .word ∧ p.2 % 4 ≠ 0) ∨ (p.1 ≠ .word ∧ p.2 < 0x000C4) ∨
        (p.1 ≠ .byte ∧ ((0x10000 ≤ p.2 ∧ p.2 ≤ 0x1FFFE) ∨ (0x20000 ≤ p.2 ∧ p.2 ≤ 0x30010)))) ∧
    (0x30010 : BusAddr).toNat = 0x30010 ∧ (script [.read .half 0x30010]).pending = .read .half 0x30010 :: [] ∧
    (0x000AA : BusAddr).toNat = 0x000AA ∧ (script [.write .word 0x000AA 1]).pending = .write .word 0x000AA 1 :: [] :=
  ⟨by simp, rfl, rfl, rfl, rfl⟩

theorem witness_ResetInputForgetsEverything : (script [.reset]).pending = .reset :: [] := rfl

theorem witness_Crc8WritesTheChecksumOfTheRange_inside :
    (regs [(.rs, 65553)]).regNat .rs + (regs [(.rs, 65553)]).regNat .rl ≤ 65553 := by decide

theorem witness_Crc8WritesTheChecksumOfTheRange_outside :
    65553 < (regs [(.rs, 65553), (.rl, 1)]).regNat .rs + (regs [(.rs, 65553), (.rl, 1)]).regNat .rl := by decide

theorem witness_Crc16WritesTheChecksumOfTheRange_inside :
    (regs [(.rs, 65552), (.rl, 1)]).regNat .rs + (regs [(.rs, 65552), (.rl, 1)]).regNat .rl ≤ 65553 := by decide

theorem witness_Crc16WritesTheChecksumOfTheRange_outside :
    65553 < (regs [(.rs, 65552), (.rl, 2)]).regNat .rs + (regs [(.rs, 65552), (.rl, 2)]).regNat .rl := by decide

theorem witness_CrcByteIsATableLookup :
    Config.hardware.crc8Reflect = false ∧ Config.hardware.crc16Reflect = false := ⟨rfl, rfl⟩

theorem witness_Crc8DetectsSingleBitsAndCollides :
    Config.hardware.crc8Reflect = false ∧ Config.hardware.crc8Poly.getLsbD 0 = true ∧ 15 < f1.length ∧ 7 < 8 := by
  decide

theorem witness_Crc16DetectsSingleBytes :
    Config.hardware.crc16Reflect = false ∧ Config.hardware.crc16Poly.getLsbD 0 = true ∧ 15 < f1.length ∧
      (0 : Byte) ≠ byteOfSeq f1 15 := by decide

theorem witness_BfpackPlacesEveryField :
    (regs pairs1).regNat .bfn ≤ 8 ∧ widthsWellFormed (regs pairs1).widths ∧
      (∀ i, i < (regs pairs1).regNat .bfn → (regs pairs1).values.getD i 0 < 2 ^ (regs pairs1).widths.getD i 0) := by
  decide +kernel

/-- The last of the five values is too wide, and no other. -/
theorem witness_BfpackReportsTheLowestOverflow :
    let s := regs (pairs1 ++ [(.bfv4, 4)])
    s.regNat .bfn ≤ 8 ∧ widthsWellFormed s.widths ∧ 4 < s.regNat .bfn ∧ 2 ^ s.widths.getD 4 0 ≤ s.values.getD 4 0 ∧
      (∀ j, j < 4 → s.values.getD j 0 < 2 ^ s.widths.getD j 0) := by decide +kernel

theorem witness_BadWidthsAreRefusedInOrder_count :
    ((regs []).regNat .bfn = 0 ∨ 8 < (regs []).regNat .bfn) ∧
      ((regs [(.bfn, 9)]).regNat .bfn = 0 ∨ 8 < (regs [(.bfn, 9)]).regNat .bfn) := by decide

theorem witness_BadWidthsAreRefusedInOrder_width :
    let s := regs [(.bfn, 2), (.bfw0, 8)]
    1 < s.regNat .bfn ∧ s.regNat .bfn ≤ 8 ∧ (s.widths.getD 1 0 = 0 ∨ 8 < s.widths.getD 1 0) ∧
      (∀ j, j < 1 → 1 ≤ s.widths.getD j 0 ∧ s.widths.getD j 0 ≤ 8) := by decide +kernel

theorem witness_BadWidthsAreRefusedInOrder_sum :
    let s := regs [(.bfn, 2), (.bfw0, 4), (.bfw1, 3)]
    1 ≤ s.regNat .bfn ∧ s.regNat .bfn ≤ 8 ∧ (∀ w ∈ s.widths, 1 ≤ w ∧ w ≤ 8) ∧ s.widths.sum ≠ 8 := by decide +kernel

/-- Eight one-bit fields. -/
theorem witness_BfunpackExtractsEveryField :
    let s := regs [(.bfn, 8), (.bfw0, 1), (.bfw1, 1), (.bfw2, 1), (.bfw3, 1), (.bfw4, 1), (.bfw5, 1), (.bfw6, 1),
      (.bfw7, 1)]
    s.regNat .bfn ≤ 8 ∧ widthsWellFormed s.widths := by decide +kernel

theorem witness_PackAndUnpackAreInverse :
    widthsWellFormed [2, 1, 2, 1, 2] ∧ [0, 1, 3, 1, 2].length = [2, 1, 2, 1, 2].length ∧
      bfPack [0, 1, 3, 1, 2] [2, 1, 2, 1, 2] = .ok 0x3E := ⟨by decide, rfl, rfl⟩

theorem witness_FlgpackPacksOrReportsTheFirstOverflow_ok :
    let s := regs [(.prf, 3), (.rte, 1), (.ena, 3), (.cmp, 1), (.pr, 3)]
    s.regNat .prf ≤ 3 ∧ s.regNat .rte ≤ 1 ∧ s.regNat .ena ≤ 3 ∧ s.regNat .cmp ≤ 1 ∧ s.regNat .pr ≤ 3 := by decide

theorem witness_FlgpackPacksOrReportsTheFirstOverflow_error :
    let s := regs [(.pr, 4)]
    4 < 5 ∧ [3, 1, 3, 1, 3].getD 4 0 <
        [s.regNat .prf, s.regNat .rte, s.regNat .ena, s.regNat .cmp, s.regNat .pr].getD 4 0 ∧
      (∀ j, j < 4 → [s.regNat .prf, s.regNat .rte, s.regNat .ena, s.regNat .cmp, s.regNat .pr].getD j 0 ≤
        [3, 1, 3, 1, 3].getD j 0) := by decide +kernel

theorem witness_FlagCommandsAreInverse_unpack :
    exec .flgunpack .reset = .next (after .flgunpack .reset) ∧
      exec .flgpack (after .flgunpack .reset) = .next (after .flgpack (after .flgunpack .reset)) :=
  ⟨exec_after _ _, exec_after _ _⟩

theorem witness_FlagCommandsAreInverse_pack :
    exec .flgpack .reset = .next (after .flgpack .reset) ∧ (after .flgpack .reset).reg .errcode = 0 ∧
      exec .flgunpack (after .flgpack .reset) = .next (after .flgunpack (after .flgpack .reset)) :=
  ⟨exec_after _ _, by decide +kernel, exec_after _ _⟩

theorem witness_HdrencWritesTheWireFormat : (regs w1).encodable ∧ (regs w2).encodable := by decide +kernel

/-- One state for each of the eight checks (vectors H8 to H19). -/
theorem witness_EncodersReportTheFirstFailingCheck :
    3 < (regs [(.prf, 4)]).regNat .prf ∧
    (let s := regs [(.rte, 2)]
     s.regNat .prf ≤ 3 ∧ 1 < s.regNat .rte) ∧
    (let s := regs [(.ena, 4)]
     s.regNat .prf ≤ 3 ∧ s.regNat .rte ≤ 1 ∧ 3 < s.regNat .ena) ∧
    (let s := regs [(.cmp, 2)]
     s.regNat .prf ≤ 3 ∧ s.regNat .rte ≤ 1 ∧ s.regNat .ena ≤ 3 ∧ 1 < s.regNat .cmp) ∧
    (let s := regs [(.pr, 4)]
     s.regNat .prf ≤ 3 ∧ s.regNat .rte ≤ 1 ∧ s.regNat .ena ≤ 3 ∧ s.regNat .cmp ≤ 1 ∧ 3 < s.regNat .pr) ∧
    (let s := regs [(.prv, 2), (.prf, 1)]
     s.regNat .prf ≤ 3 ∧ s.regNat .rte ≤ 1 ∧ s.regNat .ena ≤ 3 ∧ s.regNat .cmp ≤ 1 ∧ s.regNat .pr ≤ 3 ∧
       s.regNat .prv ≠ 1) ∧
    (let s := regs [(.prv, 1), (.prf, 3)]
     s.regNat .prf ≤ 3 ∧ s.regNat .rte ≤ 1 ∧ s.regNat .ena ≤ 3 ∧ s.regNat .cmp ≤ 1 ∧ s.regNat .pr ≤ 3 ∧
       s.regNat .prv = 1 ∧ s.regNat .prf ≠ 0) ∧
    (let s := regs [(.prv, 1), (.rte, 1), (.hl, 14)]
     s.regNat .prf = 0 ∧ s.regNat .rte ≤ 1 ∧ s.regNat .ena ≤ 3 ∧ s.regNat .cmp ≤ 1 ∧ s.regNat .pr ≤ 3 ∧
       s.regNat .prv = 1 ∧ s.regNat .hl ≠ 11 + 5 * s.regNat .rte) := by decide +kernel

theorem witness_HdrdecLoadsTheHeader : (frameState f1).headerGood ∧ (frameState f2).headerGood := by decide +kernel

/-- One state for each of the eight clauses (vectors E7, E8, E11, E13, E17, E19, E21, and FLEN above FB_SIZE). -/
theorem witness_DecodersReportTheFirstFailingStep :
    65553 < (regs [(.flen, 65554)]).regNat .flen ∧
    (frameState (f1.take 3)).regNat .flen < 4 ∧
    (let s := frameState (f1.set 3 0)
     4 ≤ s.regNat .flen ∧ s.regNat .flen ≤ 65553 ∧ s.fbNat 3 = 0) ∧
    (let s := frameState (f1.take 4)
     4 ≤ s.regNat .flen ∧ s.regNat .flen ≤ 65553 ∧ s.regNat .flen < s.fbNat 3) ∧
    (let s := frameState (f1.set 10 0x26)
     s.spanThere ∧ ¬s.headerChecksumGood) ∧
    (let s := frameState ((f1.set 0 2).set 10 0xF9)
     s.spanThere ∧ s.headerChecksumGood ∧ s.fbNat 0 ≠ 1) ∧
    (let s := frameState ((f1.set 2 0x40).set 10 0x46)
     s.spanThere ∧ s.headerChecksumGood ∧ s.fbNat 0 = 1 ∧ s.fbNat 2 / 64 ≠ 0) ∧
    (let s := frameState ((f1.set 2 0x20).set 10 0x8F)
     s.spanThere ∧ s.headerChecksumGood ∧ s.versionGood ∧ ¬s.lengthGood) := by decide +kernel

theorem witness_HeaderRoundTrip_values :
    Config.hardware.legal ∧ hdrEnc Config.hardware (regs ((.fdl, 3) :: w1)).header = .ok (f1.take 11) :=
  ⟨hardware_legal, by decide +kernel⟩

theorem witness_HeaderRoundTrip_registers :
    exec .hdrenc (regs w2) = .next (after .hdrenc (regs w2)) ∧ (after .hdrenc (regs w2)).reg .errcode = 0 :=
  ⟨exec_after _ _, by decide +kernel⟩

theorem witness_DecodedHeaderEncodesBack :
    Config.hardware.legal ∧ hdrDec Config.hardware f2 = .ok
      { header := headerOfBytes f2, hcs := 0x64, consumed := 16 } := ⟨hardware_legal, by decide +kernel⟩

/-- PLEN at 0, at 3 and at its largest value. -/
theorem witness_PktencWritesTheFrame :
    (regs w1).encodable ∧ (regs w1).regNat .plen = 0 ∧ packet1.encodable ∧ 0 < packet1.regNat .plen ∧
      (regs ((.plen, 65535) :: w2)).encodable ∧ 0 < (regs ((.plen, 65535) :: w2)).regNat .plen := by decide +kernel

theorem witness_PktencRefinesPktEnc_error :
    pktEnc Config.hardware State.reset.header State.reset.payload = .error ⟨.invalidField, 0, 0⟩ := by
  decide +kernel

theorem witness_PktencRefinesPktEnc_ok : pktEnc Config.hardware packet1.header packet1.payload = .ok f1 := by
  decide +kernel

theorem witness_PktdecDecodesAFrame :
    (let s := frameState f1
     s.headerGood ∧ s.frameNeed ≤ s.regNat .flen ∧ 0 < s.fbHalf 5 ∧
       (crc16 Config.hardware (s.slice .fb (s.fbNat 3) (s.fbHalf 5))).toNat = s.fbHalf s.payloadEnd) ∧
    (let s := frameState f3
     s.headerGood ∧ s.frameNeed ≤ s.regNat .flen ∧ ¬0 < s.fbHalf 5) := by decide +kernel

/-- Cut inside the payload, and one byte short of the end. -/
theorem witness_PktdecTruncatedKeepsTheHeader :
    (let s := frameState (f1.take 13)
     s.headerGood ∧ s.regNat .flen < s.frameNeed ∧ s.regNat .flen < s.payloadEnd) ∧
    (let s := frameState (f1.take 15)
     s.headerGood ∧ s.regNat .flen < s.frameNeed ∧ ¬s.regNat .flen < s.payloadEnd) := by decide +kernel

theorem witness_PktdecMismatchKeepsWhatWasReceived :
    let s := frameState (f1.set 14 0xAC)
    s.headerGood ∧ s.frameNeed ≤ s.regNat .flen ∧ 0 < s.fbHalf 5 ∧
      (crc16 Config.hardware (s.slice .fb (s.fbNat 3) (s.fbHalf 5))).toNat ≠ s.fbHalf s.payloadEnd := by decide +kernel

theorem witness_PktdecRefinesPktDec :
    (frameState f1).regNat .flen ≤ 65553 ∧ (regs [(.flen, 65553)]).regNat .flen ≤ 65553 ∧
      pktDec Config.hardware (frameState f1).frame =
        .ok { header := headerOfBytes f1, hcs := 0x27, payload := [1, 2, 3], consumed := 16 } ∧
      pktDec Config.hardware State.reset.frame = .error ⟨.truncated, 0x80, 4⟩ :=
  ⟨by decide +kernel, by decide +kernel, by decide +kernel, by decide +kernel⟩

theorem witness_PacketRoundTrip_values :
    Config.hardware.legal ∧ [1, 2, 3].length ≤ 65535 ∧
      pktEnc Config.hardware packet1.header [1, 2, 3] = .ok f1 := ⟨hardware_legal, by decide, by decide +kernel⟩

theorem witness_PacketRoundTrip_registers :
    exec .pktenc packet1 = .next (after .pktenc packet1) ∧ (after .pktenc packet1).reg .errcode = 0 :=
  ⟨exec_after _ _, by decide +kernel⟩

theorem witness_FrameLengthLaw :
    exec .pktenc packet1 = .next (after .pktenc packet1) ∧ (after .pktenc packet1).reg .errcode = 0 ∧
      exec .pktdec (frameState f1) = .next (after .pktdec (frameState f1)) ∧
      (after .pktdec (frameState f1)).reg .errcode = 0 := ⟨exec_after _ _, by decide +kernel, exec_after _ _, by decide +kernel⟩

theorem witness_CorruptionIsDetected :
    Config.hardware.legal ∧ Config.hardware.crc8Poly.getLsbD 0 = true ∧ Config.hardware.crc16Poly.getLsbD 0 = true ∧
      [1, 2, 3].length ≤ 65535 ∧ pktEnc Config.hardware packet1.header [1, 2, 3] = .ok f1 ∧
      9 < packet1.header.hl.toNat - 1 ∧ (0 : Byte) ≠ byteOfSeq [1, 2, 3] 2 :=
  ⟨hardware_legal, by decide, by decide, by decide, by decide +kernel, by decide, by decide⟩

/-- A configuration whose buffers are one byte too small for the packet of W1. -/
theorem witness_SmallerBuffersRaiseBadRange :
    2 < packet1.regNat .plen ∧
    (packet1.regNat .plen ≤ 3 ∧
      pktEnc { Config.hardware with fbSize := 15 } packet1.header packet1.payload = .ok f1 ∧ 15 < f1.length) ∧
    ((frameState f1).regNat .flen ≤ 65553 ∧
      hdrDec { Config.hardware with pbSize := 2 } (frameState f1).frame =
        .ok { header := headerOfBytes f1, hcs := 0x27, consumed := 11 } ∧ 2 < (headerOfBytes f1).fdl.toNat) :=
  ⟨by decide, ⟨by decide, by decide +kernel, by decide⟩, ⟨by decide, by decide +kernel, by decide +kernel⟩⟩

theorem witness_CommandsWriteOnlyTheirTable :
    (exec .hdrdec .reset = .next (after .hdrdec .reset) ∧ (after .hdrdec .reset).reg .errcode ≠ 0) ∧
    exec .hdrenc packet1 = .next (after .hdrenc packet1) ∧ exec .pktenc packet1 = .next (after .pktenc packet1) ∧
    exec .pktdec (frameState f1) = .next (after .pktdec (frameState f1)) :=
  ⟨⟨exec_after _ _, by decide +kernel⟩, exec_after _ _, exec_after _ _, exec_after _ _⟩

/-- Two states that agree on RS and RL, where the range is empty, and differ elsewhere. -/
theorem witness_ResultsDependOnlyOnWhatIsRead :
    (∀ r ∈ readRegs (regs w1) .crc8, (regs w1).reg r = (regs w2).reg r) ∧ regs w1 ≠ regs w2 ∧
      readSpan (regs w1) .crc8 .fb = (0, 0) ∧ readSpan (regs w1) .crc8 .pb = (0, 0) ∧
      exec .crc8 (regs w1) = .next (after .crc8 (regs w1)) ∧ exec .crc8 (regs w2) = .next (after .crc8 (regs w2)) :=
  ⟨by decide +kernel, by decide +kernel, by decide +kernel, rfl, exec_after _ _, exec_after _ _⟩

theorem witness_EveryCommandIsIdempotent :
    packet1.pb.wf ∧ packet1.fb.wf ∧ exec .pktenc packet1 = .next (after .pktenc packet1) :=
  ⟨by decide +kernel, by decide +kernel, exec_after _ _⟩

theorem witness_PidIsTheSendersCounter :
    (Instr.pktenc ≠ .hdrdec ∧ Instr.pktenc ≠ .pktdec ∧ Instr.pktenc ≠ .clr ∧
      exec .pktenc packet1 = .next (after .pktenc packet1)) ∧
    (exec .pktdec (frameState f3) = .next (after .pktdec (frameState f3)) ∧
      (after .pktdec (frameState f3)).reg .phase ≠ 0) :=
  ⟨⟨by decide, by decide, by decide, exec_after _ _⟩, exec_after _ _, by decide +kernel⟩

theorem witness_PayloadIsOpaque :
    packet1.encodable ∧ (3 : Byte).toNat ≤ 3 ∧ (1 : Byte).toNat ≤ 1 ∧
      exec .pktenc packet1 = .next (after .pktenc packet1) ∧
      exec .pktenc { packet1 with hdr := { packet1.hdr with ena := 3, cmp := 1 } } =
        .next (after .pktenc { packet1 with hdr := { packet1.hdr with ena := 3, cmp := 1 } }) :=
  ⟨by decide +kernel, by decide, by decide, exec_after _ _, exec_after _ _⟩

/-- The invariant holds right after reset with an access pending, and the step goes on. -/
theorem witness_EveryStepKeepsTheInvariant :
    (script [.write .word 0x000A8 0x11]).Inv ∧
      step (script [.write .word 0x000A8 0x11]) = .next (after .hdrdec .reset) := by
  refine ⟨⟨by decide, by decide, by decide, by decide, rfl, by decide, by decide, by decide, by decide, by decide,
    by decide, by decide⟩, rfl⟩

theorem witness_WellFormedScriptsRunForEver :
    (script [.write .word 0x000A8 0x11, .read .word 0x000AC, .reset]).scriptWellFormed := by
  intro a ha
  rcases (by simpa [script, State.withPending] using ha :
    a = .write .word 0x000A8 0x11 ∨ a = .read .word 0x000AC ∨ a = .reset) with rfl | rfl | rfl <;> decide

end Sys2Proof.Tests
end

section
/-! PROOFS. PKTENC of encodable operands completes, and what it leaves from offset HL up depends on the payload and HL
alone (45_packet_codec.md R94, R95); so ENA and CMP reach no byte after the header (00_scope.md R8). -/

namespace Sys2Proof.Machine

/-! ## Operands -/

/-- Encodable operands pass the eight checks of 41_header_codec.md R67, whatever length FDL is given. -/
theorem encodeError_of_encodable {s : State} (he : s.encodable) (n : Nat) :
    encodeError Config.hardware (s.header.withLength n) = none := by
  obtain ⟨hprv, hprf, hrte, hena, hcmp, hpr, hhl⟩ := he
  simp only [State.regNat_prv, State.regNat_prf, State.regNat_rte, State.regNat_ena, State.regNat_cmp,
    State.regNat_pr, State.regNat_hl] at hprv hprf hrte hena hcmp hpr hhl
  rw [encodeError_eq_none, hardware_supportedPrv, List.mem_singleton, impliedLength_hardware]
  exact ⟨hprf.trans_le (by decide), hrte, hena, hcmp, hpr, (byte_eq_one_iff _).2 hprv, (byte_eq_zero_iff _).2 hprf,
    hhl⟩

@[simp] theorem payload_startCommand (s : State) (w : Word) : (s.startCommand w).payload = s.payload :=
  State.slice_startCommand s w _ _ _

/-- The state with other values of ENA and CMP. -/
def State.withEnaCmp (s : State) (ena cmp : Byte) : State := { s with hdr := { s.hdr with ena := ena, cmp := cmp } }

@[simp] theorem withEnaCmp_hl (s : State) (ena cmp : Byte) : (s.withEnaCmp ena cmp).hdr.hl = s.hdr.hl := rfl

@[simp] theorem byteAt_withEnaCmp (s : State) (ena cmp : Byte) (buf : Buf) (a : Nat) :
    (s.withEnaCmp ena cmp).byteAt buf a = s.byteAt buf a := State.byteAt_congr rfl rfl rfl buf a

@[simp] theorem payload_withEnaCmp (s : State) (ena cmp : Byte) : (s.withEnaCmp ena cmp).payload = s.payload :=
  State.slice_congr fun _ _ => byteAt_withEnaCmp s ena cmp _ _

/-- Other encodable values of ENA and CMP leave the operands encodable. -/
theorem encodable_withEnaCmp {s : State} {ena cmp : Byte} (he : s.encodable) (hena : ena.toNat ≤ 3)
    (hcmp : cmp.toNat ≤ 1) : (s.withEnaCmp ena cmp).encodable := by
  obtain ⟨hprv, hprf, hrte, -, -, hpr, hhl⟩ := he
  exact ⟨hprv, hprf, hrte, (State.regNat_ena _).trans_le hena, (State.regNat_cmp _).trans_le hcmp, hpr, hhl⟩

/-! ## What PKTENC writes -/

/-- What stands after the header of a frame: the payload and its checksum (45_packet_codec.md R94). -/
def payloadPart (cfg : Config) (p : List Byte) : List Byte := p ++ checksumBytes cfg p

/-- A frame is as long as 30_encoding.md R59 says. -/
theorem length_append_payloadPart (cfg : Config) (b p : List Byte) :
    (b ++ payloadPart cfg p).length = frameLen b.length p.length := by
  rw [payloadPart, List.length_append, List.length_append, checksumBytes_length, frameLen, Nat.add_assoc]

/-- The longest frame fits FB of this hardware (10_state.md R29). -/
theorem frameLen_le {hl fdl : Nat} (hhl : hl ≤ 16) (hfdl : fdl < 65536) : frameLen hl fdl ≤ 65553 := by
  rw [frameLen]
  split <;> omega

/-- What PKTENC writes for the header bytes `b`: the frame, FDL, SFRCS, FLAGS, HCS and FLEN
(45_packet_codec.md R95). -/
def commitFrame (cfg : Config) (s : State) (b : List Byte) : State :=
  (((((s.store .fb 0 (b ++ payloadPart cfg s.payload)).setFdl s.payload.length).setSfrcs
    (checksumRegister cfg s.payload)).setFlags (byteOfSeq b 2)).setHcs (byteOfSeq b (b.length - 1))).setFlen
      (frameLen b.length s.payload.length)

theorem commitFrame_sfrcs (cfg : Config) (s : State) (b : List Byte) :
    (commitFrame cfg s b).reg .sfrcs = (checksumRegister cfg s.payload).setWidth 32 := rfl

theorem commitFrame_flen (cfg : Config) (s : State) (b : List Byte) :
    (commitFrame cfg s b).reg .flen = (BitVec.ofNat 17 (frameLen b.length s.payload.length)).setWidth 32 := rfl

/-- From the end of the header up FB holds the payload part, and beyond the frame what it held before. -/
theorem commitFrame_byteAt (cfg : Config) (s : State) {b : List Byte} {a : Nat} (ha : b.length ≤ a) :
    (commitFrame cfg s b).byteAt .fb a =
      if a < frameLen b.length s.payload.length then byteOfSeq (payloadPart cfg s.payload) (a - b.length)
      else s.byteAt .fb a := by
  simp only [commitFrame, State.byteAt_setFlen, State.byteAt_setHcs, State.byteAt_setFlags, State.byteAt_setSfrcs,
    State.byteAt_setFdl, State.byteAt_store, length_append_payloadPart, Nat.zero_add, Nat.zero_le, true_and,
    Nat.sub_zero]
  rw [← byteOfSeq_append_right ha, byteOfSeq]

/-- What PKTENC does when the header is encodable and both buffer bounds hold (45_packet_codec.md R95). -/
theorem pktencCommand_ok {cfg : Config} {s : State} {b : List Byte} (hp : s.payloadLength ≤ cfg.pbSize)
    (hb : hdrEnc cfg (s.header.withLength s.payloadLength) = .ok b)
    (hf : frameLen b.length s.payload.length ≤ cfg.fbSize) :
    pktencCommand cfg s = (commitFrame cfg s b, none) := by
  have hfl := length_append_payloadPart cfg b s.payload
  rw [payloadPart] at hfl
  simp only [pktencCommand, if_neg (Nat.not_lt.2 hp), hb, hfl, if_neg (Nat.not_lt.2 hf), commitFrame, payloadPart,
    List.append_assoc]

/-- PKTENC of encodable operands completes with a header of HL bytes: on this hardware neither buffer bound can be
passed. -/
theorem pktencCommand_of_encodable {s : State} (he : s.encodable) :
    ∃ b, b.length = s.hdr.hl.toNat ∧
      pktencCommand Config.hardware s = (commitFrame Config.hardware s b, none) := by
  have hb := hdrEnc_of_encodable (encodeError_of_encodable he s.payloadLength)
  obtain ⟨hlen, hhl⟩ := hdrEnc_length hardware_legal hb
  have hplen : s.rng.plen.toNat < 65536 := s.rng.plen.isLt
  refine ⟨_, hlen, pktencCommand_ok (Nat.le_of_lt_succ hplen) hb (frameLen_le (by omega) ?_)⟩
  rwa [payload_length]

/-- After PKTENC of encodable operands SFRCS, FLEN and every byte of FB from offset HL up are functions of the payload,
HL and the bytes FB held. -/
theorem exec_pktenc_after_header {s t : State} (he : s.encodable) (ht : exec .pktenc s = .next t) :
    t.reg .sfrcs = (checksumRegister Config.hardware s.payload).setWidth 32 ∧
    t.reg .flen = (BitVec.ofNat 17 (frameLen s.hdr.hl.toNat s.payload.length)).setWidth 32 ∧
    ∀ a, s.hdr.hl.toNat ≤ a → t.byteAt .fb a =
      if a < frameLen s.hdr.hl.toNat s.payload.length then
        byteOfSeq (payloadPart Config.hardware s.payload) (a - s.hdr.hl.toNat)
      else s.byteAt .fb a := by
  have hrun : runCommand (encode .pktenc) (pktencCommand Config.hardware) s = .next t := ht
  have hstart : (s.startCommand (encode .pktenc)).encodable := he
  obtain ⟨b, hlen, hbody⟩ := pktencCommand_of_encodable hstart
  rw [State.startCommand_hdr] at hlen
  refine ⟨?_, ?_, fun a ha => ?_⟩
  · rw [runCommand_reg hrun (by decide), hbody, commitFrame_sfrcs, payload_startCommand]
  · rw [runCommand_reg hrun (by decide), hbody, commitFrame_flen, payload_startCommand, hlen]
  · rw [runCommand_byteAt hrun, hbody, commitFrame_byteAt _ _ (hlen.trans_le ha), payload_startCommand, hlen,
      State.byteAt_startCommand]

/-! ## The payload is opaque -/

/-- Settles O54: both runs write the same payload part after headers of one length. -/
theorem payloadIsOpaque : Obligations.PayloadIsOpaque := by
  intro s t u ena cmp he hena hcmp ht hu
  obtain ⟨htSfrcs, htFlen, htByte⟩ := exec_pktenc_after_header he ht
  obtain ⟨huSfrcs, huFlen, huByte⟩ := exec_pktenc_after_header (encodable_withEnaCmp he hena hcmp) hu
  rw [payload_withEnaCmp] at huSfrcs
  rw [payload_withEnaCmp, withEnaCmp_hl] at huFlen
  refine ⟨htSfrcs.trans huSfrcs.symm, htFlen.trans huFlen.symm, fun a ha => ?_⟩
  rw [State.regNat_hl] at ha
  rw [htByte a ha, huByte a ha, payload_withEnaCmp, withEnaCmp_hl, byteAt_withEnaCmp]

end Sys2Proof.Machine
end

section
/-! PROOFS. Word accesses of the host to the registers (10_state.md R17, 20_memory.md R35): a read answers the register,
a write keeps its low bits or, on a read-only register, has no effect. -/

namespace Sys2Proof.Machine

/-- The read-only registers of 10_state.md R17. -/
def readOnlyRegs : List Reg := [.crc8r, .crc16r, .status, .errcode, .errfield, .errofs, .phase, .cur]

/-! ## Writing a register by name -/

theorem writeReg_of_readOnly (s : State) {r : Reg} (w : Word) (hr : r ∈ readOnlyRegs) : s.writeReg r w = s := by
  simp only [readOnlyRegs, List.mem_cons, List.not_mem_nil, or_false] at hr
  rcases hr with rfl | rfl | rfl | rfl | rfl | rfl | rfl | rfl <;> rfl

/-- Read after write of the same register. -/
theorem reg_writeReg_same (s : State) {r : Reg} (w : Word) (hr : r ∉ readOnlyRegs) :
    (s.writeReg r w).reg r = (w.setWidth (regWidth r)).setWidth 32 := by
  cases r <;> simp [readOnlyRegs] at hr <;> simp [State.writeReg, regWidth]

/-- Read after write of another register. -/
theorem reg_writeReg_ne (s : State) {r q : Reg} (w : Word) (hq : q ≠ r) : (s.writeReg r w).reg q = s.reg q := by
  cases r <;> cases q <;> first | rfl | exact absurd rfl hq

@[simp] theorem writeReg_pb (s : State) (r : Reg) (w : Word) : (s.writeReg r w).pb = s.pb := by cases r <;> rfl
@[simp] theorem writeReg_fb (s : State) (r : Reg) (w : Word) : (s.writeReg r w).fb = s.fb := by cases r <;> rfl
@[simp] theorem writeReg_epoch (s : State) (r : Reg) (w : Word) : (s.writeReg r w).epoch = s.epoch := by
  cases r <;> rfl
@[simp] theorem writeReg_pending (s : State) (r : Reg) (w : Word) : (s.writeReg r w).pending = s.pending := by
  cases r <;> rfl

/-- Of registers 42 to 48 the host can change CMD alone. -/
theorem writeReg_ctl (s : State) {r : Reg} (w : Word) (hr : r ≠ .cmd) : (s.writeReg r w).ctl = s.ctl := by
  cases r <;> first | rfl | exact absurd rfl hr

@[simp] theorem byteAt_writeReg (s : State) (r : Reg) (w : Word) (buf : Buf) (a : Nat) :
    (s.writeReg r w).byteAt buf a = s.byteAt buf a :=
  State.byteAt_congr (writeReg_pb s r w) (writeReg_fb s r w) (writeReg_epoch s r w) buf a

theorem regWidth_le (r : Reg) : regWidth r ≤ 32 := by cases r <;> decide

/-! ## The access as a step -/

theorem step_readRegister {s : State} {r : Reg} {rest : List HostAccess}
    (h : s.pending = .read .word (BitVec.ofNat 18 (4 * regNum r)) :: rest) :
    step s = .next ((s.withPending rest).answer (some (s.reg r))) := by
  rw [step_cons h, hostAccess_read (busTarget_reg r), State.busRead, State.reg_withPending]

theorem step_writeRegister {s : State} {r : Reg} {w : Word} {rest : List HostAccess} (hr : r ≠ .cmd)
    (h : s.pending = .write .word (BitVec.ofNat 18 (4 * regNum r)) w :: rest) :
    step s = .next (((s.withPending rest).answer none).writeReg r w) := by
  rw [step_cons h, hostAccess_write (busTarget_reg r) (by simpa using hr), State.busWrite]

/-- Settles O7: the read's target is the register, and a read only places the answer. -/
theorem hostReadsARegister : Obligations.HostReadsARegister :=
  fun _ _ _ h => step_readRegister h

/-- Settles O9: a read-only register ignores the write. -/
theorem hostWriteToReadOnlyHasNoEffect : Obligations.HostWriteToReadOnlyHasNoEffect := by
  intro s r w rest hr h
  have hcmd : r ≠ .cmd := fun he => by subst he; revert hr; decide
  rw [step_writeRegister hcmd h, writeReg_of_readOnly _ w hr]
  rfl

/-- Settles O8: read after write, for the register itself and for every other one. -/
theorem hostWriteKeepsTheLowBits : Obligations.HostWriteKeepsTheLowBits := by
  intro s r w rest hr h
  have hcmd : r ≠ .cmd := fun he => hr (by simp [he])
  have hro : r ∉ readOnlyRegs := fun hm => hr (show r ∈ readOnlyRegs ++ [.cmd] from List.mem_append_left _ hm)
  refine ⟨_, step_writeRegister hcmd h, ?_, fun q hq => ?_, fun a => ?_, fun a => ?_, ?_, ?_⟩
  · rw [State.regNat, reg_writeReg_same _ w hro, setWidth_toNat_of_le _ (regWidth_le r), BitVec.toNat_setWidth]
  · rw [reg_writeReg_ne _ w (List.mem_singleton.not.1 hq), State.reg_answer, State.reg_withPending]
  · rw [byteAt_writeReg, State.byteAt_answer, State.byteAt_withPending]
  · rw [byteAt_writeReg, State.byteAt_answer, State.byteAt_withPending]
  · rw [writeReg_pending, State.answer_pending, State.withPending_pending]
  · rw [writeReg_epoch, State.answer_epoch, State.withPending_epoch]

/-- Settles O14: every register has the reset value 0. -/
theorem resetRegistersAreZero : Obligations.ResetRegistersAreZero :=
  ⟨fun r => by cases r <;> rfl, rfl, rfl⟩

end Sys2Proof.Machine
end

section
/-! PROOFS. The body of every command but CLR, and the ERRFIELD values its errors can name (60_exceptions.md R108). -/

namespace Sys2Proof.Machine

/-! ## Commands by their bodies -/

/-- The body that `exec` runs for a command. CLR has none: it does not complete as the others do (46_system.md
R104). -/
def commandBody : Instr → State → State × Option Err
  | .nop, s | .clr, s => (s, none)
  | .crc8, s => crc8Command Config.hardware s
  | .crc16, s => crc16Command Config.hardware s
  | .bfpack, s => bfpackCommand s
  | .bfunpack, s => bfunpackCommand s
  | .flgpack, s => flgpackCommand s
  | .flgunpack, s => flgunpackCommand s
  | .hdrenc, s => hdrencCommand Config.hardware s
  | .hdrdec, s => hdrdecCommand Config.hardware s
  | .pktenc, s => pktencCommand Config.hardware s
  | .pktdec, s => pktdecCommand Config.hardware s

theorem exec_eq_runCommand {i : Instr} (hi : i ≠ .clr) (s : State) :
    exec i s = runCommand (encode i) (commandBody i) s := by
  cases i <;> first | rfl | exact absurd rfl hi

theorem exec_clr (s : State) : exec .clr s = .next s.clearRegisters := rfl

/-! ## What an error names -/

/-- The error names a register, the header span or the payload (60_exceptions.md R108). -/
def Err.named (e : Err) : Prop := e.field ≤ 48 ∨ e.field = headerRegion ∨ e.field = payloadRegion

theorem regNum_le (r : Reg) : regNum r ≤ 48 := by cases r <;> decide

theorem named_reg (c : ErrCode) (r : Reg) (ofs : Nat) : Err.named ⟨c, regNum r, ofs⟩ := .inl (regNum_le r)

theorem named_headerRegion (c : ErrCode) (ofs : Nat) : Err.named ⟨c, headerRegion, ofs⟩ := .inr (.inl rfl)

theorem rangeError_named {cfg : Config} {s : State} {e : Err} (h : rangeError cfg s = some e) : e.named := by
  simp only [rangeError] at h
  split at h <;> cases h
  exact named_reg _ _ _

theorem frameLengthError_named {cfg : Config} {s : State} {e : Err} (h : frameLengthError cfg s = some e) :
    e.named := by
  simp only [frameLengthError] at h
  split at h <;> cases h
  exact named_reg _ _ _

theorem firstBadWidth_lt {k i w : Nat} {ws : List Nat} (h : firstBadWidth k ws = some (i, w)) :
    i < k + ws.length := by
  induction ws generalizing k with
  | nil => simp [firstBadWidth] at h
  | cons v ws ih =>
    rw [List.length_cons]
    simp only [firstBadWidth] at h
    split at h
    · cases h; omega
    · have := ih h; omega

theorem firstOverflow_lt {k i : Nat} {vs ws : List Nat} (h : firstOverflow k vs ws = some i) :
    i < k + ws.length := by
  induction ws generalizing k vs with
  | nil => cases vs <;> simp [firstOverflow] at h
  | cons w ws ih =>
    cases vs with
    | nil => simp [firstOverflow] at h
    | cons v vs =>
      rw [List.length_cons]
      simp only [firstOverflow] at h
      split at h
      · cases h; omega
      · have := ih h; omega

theorem widths_length_le (s : State) : s.widths.length ≤ 8 := List.length_take_le' _ s.allWidths

/-- An error of the width test names BFN or one of the eight width registers (42_bitfield.md R74). -/
theorem bfCheck_named {n : Nat} {ws : List Nat} {e : Err} (hl : ws.length ≤ 8) (h : bfCheck n ws = .error e) :
    e.named := by
  simp only [bfCheck] at h
  split at h
  · cases h; exact named_reg _ _ _
  · split at h
    · next i w hb =>
      cases h
      have := firstBadWidth_lt hb
      exact .inl (show 34 + i ≤ 48 by omega)
    · split at h <;> cases h
      exact named_reg _ _ _

/-- An error of the packer names the value register of a field (42_bitfield.md R75). -/
theorem bfPack_error_inv {vs ws : List Nat} {e : Err} (h : bfPack vs ws = .error e) :
    e.field = 26 + e.ofs ∧ e.ofs < ws.length := by
  cases ho : firstOverflow 0 vs ws with
  | none => rw [bfPack_ok ho] at h; cases h
  | some i =>
    rw [bfPack_error ho] at h
    cases h
    exact ⟨rfl, by simpa using firstOverflow_lt ho⟩

theorem bfPack_named {vs ws : List Nat} {e : Err} (hl : ws.length ≤ 8) (h : bfPack vs ws = .error e) : e.named := by
  obtain ⟨hf, ho⟩ := bfPack_error_inv h
  exact .inl (by omega)

theorem encodeError_named {cfg : Config} {h : Header} {e : Err} (he : encodeError cfg h = some e) : e.named := by
  simp only [encodeError] at he
  split_ifs at he <;> cases he <;> exact named_reg _ _ _

theorem hdrEnc_error_inv {cfg : Config} {h : Header} {e : Err} (he : hdrEnc cfg h = .error e) :
    encodeError cfg h = some e := by
  cases hc : encodeError cfg h with
  | none => rw [hdrEnc_of_encodable hc] at he; cases he
  | some e' => rw [hdrEnc_error_of hc] at he; cases he; rfl

theorem hdrEnc_named {cfg : Config} {h : Header} {e : Err} (he : hdrEnc cfg h = .error e) : e.named :=
  encodeError_named (hdrEnc_error_inv he)

theorem hdrDec_named {cfg : Config} {s : List Byte} {e : Err} (he : hdrDec cfg s = .error e) : e.named := by
  rw [hdrDec_error_iff] at he
  simp only [decodeError] at he
  split_ifs at he <;> cases he
  exacts [named_headerRegion _ _, named_reg _ _ _, named_headerRegion _ _, named_reg _ _ _, named_reg _ _ _,
    named_reg _ _ _, named_reg _ _ _]

/-! ### The payload steps (45_packet_codec.md R96): the errors named, and the payload no longer than FDL -/

theorem decodePayload_short {cfg : Config} {s : List Byte} {hl fdl : Nat} {e : Err}
    (h : decodePayload cfg s hl fdl = .short e) : e.named := by
  rcases decodePayload_cases cfg s hl fdl with ⟨_, hd⟩ | ⟨_, _, hd⟩ | ⟨_, _, _, hd⟩ | ⟨_, _, _, hd⟩ <;>
    rw [hd] at h <;> cases h
  split
  · exact .inr (.inr rfl)
  · exact named_reg _ _ _

theorem decodePayload_mismatch {cfg : Config} {s p : List Byte} {hl fdl : Nat} {rx : Half} {e : Err}
    (h : decodePayload cfg s hl fdl = .mismatch p rx e) : e.named ∧ p.length ≤ fdl := by
  rcases decodePayload_cases cfg s hl fdl with ⟨_, hd⟩ | ⟨_, _, hd⟩ | ⟨_, _, _, hd⟩ | ⟨_, _, _, hd⟩ <;>
    rw [hd] at h <;> cases h
  exact ⟨named_reg _ _ _, List.length_take_le _ _⟩

theorem decodePayload_valid {cfg : Config} {s p : List Byte} {hl fdl need : Nat} {rx : Half}
    (h : decodePayload cfg s hl fdl = .valid p rx need) : need = frameLen hl fdl ∧ p.length ≤ fdl := by
  rcases decodePayload_cases cfg s hl fdl with ⟨_, hd⟩ | ⟨_, _, hd⟩ | ⟨_, _, _, hd⟩ | ⟨_, _, _, hd⟩ <;>
    rw [hd] at h <;> cases h
  · exact ⟨rfl, Nat.zero_le _⟩
  · exact ⟨rfl, List.length_take_le _ _⟩

end Sys2Proof.Machine
end

section
/-! PROOFS. The invariant of the machine: it holds after reset, and every step keeps it. It is split into the part that
the body of a command keeps (buffers and decode cursor) and the part that its completion sets up anew (the report). -/

namespace Sys2Proof.Machine

/-! ## Bounded memories -/

/-- The memory is canonical and lists no offset at or beyond `size` (10_state.md R29). -/
def Memory.Bounded (m : Memory) (size : Nat) : Prop := m.wf ∧ ∀ c ∈ m, c.1 < size

theorem Memory.bounded_nil (size : Nat) : Memory.Bounded [] size := ⟨List.Pairwise.nil, by simp⟩

theorem Memory.Bounded.writeBytes {m : Memory} {size a : Nat} {bs : List Byte} (h : m.Bounded size)
    (ha : a + bs.length ≤ size) : (m.writeBytes a bs).Bounded size := by
  obtain ⟨hwf, hin⟩ := h
  refine ⟨Memory.wf_writeBytes hwf a bs, fun c hc => ?_⟩
  rcases Memory.mem_writeBytes hc with ⟨_, hlt⟩ | hc
  · omega
  · exact hin c hc

/-! ## The two parts of the invariant -/

/-- PHASE and CUR between steps (10_state.md R27, R28). -/
structure CursorAtRest (phase : BitVec 3) (cur : Count) : Prop where
  phaseAtRest : phase = Phase.start.num ∨ phase = Phase.headerParsed.num ∨ phase = Phase.checksumValidated.num ∨
    phase = Phase.checksumFailed.num
  startMeansNothingConsumed : phase = Phase.start.num → cur = 0
  cursorInside : cur.toNat ≤ 65553

theorem cursorAtRest_start : CursorAtRest Phase.start.num (BitVec.ofNat 17 0) := ⟨by decide, by decide, by decide⟩

theorem cursorAtRest_past {p : Phase} {n : Nat} (hs : p ≠ .start) (hr : p ≠ .payloadRead) (hn : n ≤ 65553) :
    CursorAtRest p.num (BitVec.ofNat 17 n) := by
  refine ⟨?_, fun h => ?_, (Nat.mod_le _ _).trans hn⟩
  · cases p <;> simp at hs hr <;> simp
  · cases p <;> simp [Phase.num] at hs h

/-- What the body of a command keeps. -/
structure State.BodyInv (s : State) : Prop where
  pb : s.pb.Bounded 65535
  fb : s.fb.Bounded 65553
  cursor : CursorAtRest s.ctl.phase s.ctl.cur

/-- What the completion of a command sets up (60_exceptions.md R106 to R108). -/
structure State.ReportInv (s : State) : Prop where
  notBusy : s.busy = false
  errMeansCode : s.err = true ↔ s.ctl.errcode ≠ 0
  errMeansDone : s.err = true → s.done = true
  errcodeProduced : s.ctl.errcode.toNat ≤ 9
  errfieldProduced : s.ctl.errfield.toNat ≤ 48 ∨ s.ctl.errfield.toNat = 0x80 ∨ s.ctl.errfield.toNat = 0x81

theorem State.inv_iff (s : State) : s.Inv ↔ s.BodyInv ∧ s.ReportInv := by
  constructor
  · rintro ⟨hpc, hfc, hpi, hfi, hbusy, hcode, hdone, hle, hfield, hphase, hstart, hcur⟩
    exact ⟨⟨⟨hpc, hpi⟩, ⟨hfc, hfi⟩, ⟨hphase, hstart, hcur⟩⟩, ⟨hbusy, hcode, hdone, hle, hfield⟩⟩
  · rintro ⟨⟨⟨hpc, hpi⟩, ⟨hfc, hfi⟩, ⟨hphase, hstart, hcur⟩⟩, ⟨hbusy, hcode, hdone, hle, hfield⟩⟩
    exact ⟨hpc, hfc, hpi, hfi, hbusy, hcode, hdone, hle, hfield, hphase, hstart, hcur⟩

/-! ## What keeps each part -/

theorem State.BodyInv.congr {s t : State} (h : s.BodyInv) (hp : t.pb = s.pb) (hf : t.fb = s.fb)
    (hphase : t.ctl.phase = s.ctl.phase) (hcur : t.ctl.cur = s.ctl.cur) : t.BodyInv :=
  ⟨hp ▸ h.pb, hf ▸ h.fb, by rw [hphase, hcur]; exact h.cursor⟩

theorem State.BodyInv.setPhase {s : State} {p : Phase} {n : Nat} (h : s.BodyInv)
    (hc : CursorAtRest p.num (BitVec.ofNat 17 n)) : (s.setPhase p n).BodyInv := ⟨h.pb, h.fb, hc⟩

theorem State.BodyInv.store {s : State} {buf : Buf} {a : Nat} {bs : List Byte} (h : s.BodyInv)
    (ha : a + bs.length ≤ Config.hardware.sizeOf buf) : (s.store buf a bs).BodyInv := by
  cases buf
  case pb => exact ⟨h.pb.writeBytes ha, h.fb, h.cursor⟩
  case fb => exact ⟨h.pb, h.fb.writeBytes ha, h.cursor⟩

theorem State.ReportInv.congr {s t : State} (h : s.ReportInv) (hc : t.ctl = s.ctl) : t.ReportInv := by
  obtain ⟨hbusy, hcode, hdone, hle, hfield⟩ := h
  simp only [State.busy, State.err, State.done] at hbusy hcode hdone
  rw [← hc] at hbusy hcode hdone hle hfield
  exact ⟨hbusy, hcode, hdone, hle, hfield⟩

theorem reportInv_of_reset {s : State} (hc : s.ctl = .reset) : s.ReportInv :=
  State.ReportInv.congr (s := State.reset) ⟨by decide, by decide, by decide, by decide, by decide⟩ hc

theorem State.Inv.congr {s t : State} (h : s.Inv) (hp : t.pb = s.pb) (hf : t.fb = s.fb) (hc : t.ctl = s.ctl) :
    t.Inv := by
  rw [State.inv_iff] at h ⊢
  obtain ⟨hbody, hreport⟩ := h
  exact ⟨hbody.congr hp hf (by rw [hc]) (by rw [hc]), hreport.congr hc⟩

/-- Reset registers with bounded buffers: after reset, after the reset input, after CLR. -/
theorem inv_of_reset {s : State} (hp : s.pb.Bounded 65535) (hf : s.fb.Bounded 65553) (hc : s.ctl = .reset) :
    s.Inv :=
  s.inv_iff.2 ⟨⟨hp, hf, by rw [hc]; exact cursorAtRest_start⟩, reportInv_of_reset hc⟩

theorem reportInv_finish (s : State) : s.finish.ReportInv :=
  ⟨by simp [State.busy, statusAfter, statusWord], by simp [State.err, statusAfter, statusWord],
    by simp [State.err, statusAfter, statusWord], by simp, by simp⟩

theorem errCode_num (c : ErrCode) : c.num ≠ 0 ∧ c.num.toNat ≤ 9 := by cases c <;> decide

theorem reportInv_raise (s : State) {e : Err} (he : e.named) : (s.raise e).ReportInv := by
  obtain ⟨hne, hle⟩ := errCode_num e.code
  have hstatus : (s.raise e).ctl.status = 6 := statusAfter_code e.code
  refine ⟨?_, ?_, fun _ => ?_, hle, ?_⟩
  · rw [State.busy, hstatus]; rfl
  · rw [State.err, hstatus]; exact ⟨fun _ => hne, fun _ => rfl⟩
  · rw [State.done, hstatus]; rfl
  · rw [State.raise_errfield, byteOf, BitVec.toNat_ofNat]
    rcases he with h | h | h
    · exact .inl ((Nat.mod_le _ _).trans h)
    · exact .inr (.inl (by rw [h]; rfl))
    · exact .inr (.inr (by rw [h]; rfl))

/-! ## Commands -/

/-- A body has left buffers and cursor at rest, and the error it ended with, if any, names what ERRFIELD can hold. -/
def AtRest (r : State × Option Err) : Prop := r.1.BodyInv ∧ ∀ e ∈ r.2, e.named

theorem atRest_ok {u : State} (h : u.BodyInv) : AtRest (u, none) := ⟨h, by simp⟩

theorem atRest_error {u : State} {e : Err} (h : u.BodyInv) (he : e.named) : AtRest (u, some e) :=
  ⟨h, by simpa using he⟩

/-- The completion turns a body at rest into a state that meets the invariant. -/
theorem AtRest.complete {r : State × Option Err} (h : AtRest r) : (r.1.complete r.2).Inv := by
  obtain ⟨u, o⟩ := r
  obtain ⟨hbody, hnamed⟩ := h
  rw [State.inv_iff]
  cases o with
  | none => exact ⟨hbody.congr rfl rfl rfl rfl, reportInv_finish u⟩
  | some e => exact ⟨hbody.congr rfl rfl rfl rfl, reportInv_raise u (hnamed e rfl)⟩

theorem crc8Command_atRest {cfg : Config} {s : State} (h : s.BodyInv) : AtRest (crc8Command cfg s) := by
  simp only [crc8Command]
  split
  · exact atRest_error h (rangeError_named ‹_›)
  · exact atRest_ok (h.congr rfl rfl rfl rfl)

theorem crc16Command_atRest {cfg : Config} {s : State} (h : s.BodyInv) : AtRest (crc16Command cfg s) := by
  simp only [crc16Command]
  split
  · exact atRest_error h (rangeError_named ‹_›)
  · exact atRest_ok (h.congr rfl rfl rfl rfl)

theorem bfpackCommand_atRest {s : State} (h : s.BodyInv) : AtRest (bfpackCommand s) := by
  simp only [bfpackCommand]
  split
  · exact atRest_error h (bfCheck_named (widths_length_le s) ‹_›)
  · split
    · exact atRest_error h (bfPack_named (widths_length_le s) ‹_›)
    · exact atRest_ok (h.congr rfl rfl rfl rfl)

theorem bfunpackCommand_atRest {s : State} (h : s.BodyInv) : AtRest (bfunpackCommand s) := by
  simp only [bfunpackCommand]
  split
  · exact atRest_error h (bfCheck_named (widths_length_le s) ‹_›)
  · exact atRest_ok (h.congr rfl rfl rfl rfl)

theorem flgpackCommand_atRest {s : State} (h : s.BodyInv) : AtRest (flgpackCommand s) := by
  simp only [flgpackCommand]
  split
  · next e he =>
    have hofs : e.ofs < 5 := (bfPack_error_inv he).2
    exact atRest_error h (.inl (show 2 + e.ofs ≤ 48 by omega))
  · exact atRest_ok (h.congr rfl rfl rfl rfl)

theorem flgunpackCommand_atRest {s : State} (h : s.BodyInv) : AtRest (flgunpackCommand s) :=
  atRest_ok (h.congr rfl rfl rfl rfl)

theorem hdrencCommand_atRest {s : State} (h : s.BodyInv) : AtRest (hdrencCommand Config.hardware s) := by
  simp only [hdrencCommand]
  split
  · exact atRest_error h (hdrEnc_named ‹_›)
  · next b hb =>
    obtain ⟨hlen, hhl⟩ := hdrEnc_length hardware_legal hb
    have hstore : (s.store .fb 0 b).BodyInv := h.store (show 0 + b.length ≤ 65553 by omega)
    exact atRest_ok (hstore.congr rfl rfl rfl rfl)

theorem State.BodyInv.commitHeader {s : State} {d : HeaderDecoded} (h : s.BodyInv) (hd : d.consumed ≤ 16) :
    (commitHeader s d).BodyInv :=
  State.BodyInv.setPhase (h.congr rfl rfl rfl rfl) (cursorAtRest_past nofun nofun (by omega))

theorem State.BodyInv.commitPayload {s : State} {p : List Byte} (h : s.BodyInv) (hp : p.length ≤ 65535) (rx : Half) :
    (commitPayload s p rx).BodyInv :=
  (h.store (buf := .pb) (a := 0) (bs := p) (show 0 + p.length ≤ 65535 by omega)).congr rfl rfl rfl rfl

theorem hdrdecCommand_atRest {s : State} (h : s.BodyInv) : AtRest (hdrdecCommand Config.hardware s) := by
  have hstart : (s.setPhase .start 0).BodyInv := h.setPhase cursorAtRest_start
  simp only [hdrdecCommand]
  split
  · exact atRest_error hstart (frameLengthError_named ‹_›)
  · split
    · exact atRest_error hstart (hdrDec_named ‹_›)
    · next d hd =>
      obtain ⟨hlen, -⟩ := hdrDec_consumed hardware_legal hd
      exact atRest_ok (hstart.commitHeader (by omega))

theorem pktencCommand_atRest {s : State} (h : s.BodyInv) : AtRest (pktencCommand Config.hardware s) := by
  simp only [pktencCommand]
  split
  · exact atRest_error h (named_reg _ _ _)
  · split
    · exact atRest_error h (hdrEnc_named ‹_›)
    · split
      · exact atRest_error h (named_reg _ _ _)
      · next b _ hlen =>
        have hstore := h.store (buf := .fb) (a := 0) (bs := b ++ s.payload ++ checksumBytes Config.hardware s.payload)
          (by rw [Nat.zero_add]; exact Nat.le_of_not_lt hlen)
        exact atRest_ok (hstore.congr rfl rfl rfl rfl)

theorem pktdecCommand_atRest {s : State} (h : s.BodyInv) : AtRest (pktdecCommand Config.hardware s) := by
  have hstart : (s.setPhase .start 0).BodyInv := h.setPhase cursorAtRest_start
  simp only [pktdecCommand]
  split
  · exact atRest_error hstart (frameLengthError_named ‹_›)
  · split
    · exact atRest_error hstart (hdrDec_named ‹_›)
    · next d hd =>
      obtain ⟨hlen, -⟩ := hdrDec_consumed hardware_legal hd
      have hhead := hstart.commitHeader (d := d) (by omega)
      have hfdl := d.header.fdl.isLt
      have hframe : frameLen d.consumed d.header.fdl.toNat ≤ 65553 := frameLen_le (by omega) hfdl
      split
      · exact atRest_error hhead (named_reg _ _ _)
      · split
        · exact atRest_error hhead (decodePayload_short ‹_›)
        · next p rx e hp =>
          obtain ⟨hnamed, hplen⟩ := decodePayload_mismatch hp
          exact atRest_error ((hhead.commitPayload (by omega) rx).setPhase (cursorAtRest_past nofun nofun hframe))
            hnamed
        · next p rx need hp =>
          obtain ⟨rfl, hplen⟩ := decodePayload_valid hp
          exact atRest_ok ((hhead.commitPayload (by omega) rx).setPhase (cursorAtRest_past nofun nofun hframe))

theorem commandBody_atRest (i : Instr) {s : State} (h : s.BodyInv) : AtRest (commandBody i s) := by
  cases i with
  | nop | clr => exact atRest_ok h
  | crc8 => exact crc8Command_atRest h
  | crc16 => exact crc16Command_atRest h
  | bfpack => exact bfpackCommand_atRest h
  | bfunpack => exact bfunpackCommand_atRest h
  | flgpack => exact flgpackCommand_atRest h
  | flgunpack => exact flgunpackCommand_atRest h
  | hdrenc => exact hdrencCommand_atRest h
  | hdrdec => exact hdrdecCommand_atRest h
  | pktenc => exact pktencCommand_atRest h
  | pktdec => exact pktdecCommand_atRest h

/-! ## Steps -/

theorem runCommand_inv {w : Word} {body : State → State × Option Err} {s t : State} (hs : s.Inv)
    (hb : (s.startCommand w).BodyInv → AtRest (body (s.startCommand w))) (h : runCommand w body s = .next t) :
    t.Inv := by
  obtain ⟨hbody, -⟩ := s.inv_iff.1 hs
  have hrest := hb (hbody.congr rfl rfl rfl rfl)
  cases h
  exact hrest.complete

theorem exec_inv {i : Instr} {s t : State} (hs : s.Inv) (h : exec i s = .next t) : t.Inv := by
  by_cases hi : i = .clr
  · subst hi
    obtain ⟨hbody, -⟩ := s.inv_iff.1 hs
    rw [exec_clr] at h
    cases h
    exact inv_of_reset hbody.pb hbody.fb rfl
  · rw [exec_eq_runCommand hi] at h
    exact runCommand_inv hs (commandBody_atRest i) h

theorem commandWrite_inv {w : Word} {s t : State} (hs : s.Inv) (h : commandWrite w s = .next t) : t.Inv := by
  simp only [commandWrite] at h
  split at h
  · exact exec_inv hs h
  · exact runCommand_inv hs (fun hb => atRest_error hb (named_reg _ _ _)) h

/-- A host write other than a CMD write: a register the host owns, or one byte inside a buffer. -/
theorem busWrite_inv {s : State} {size : AccessSize} {a : Nat} {x : Target} (w : Word) (hs : s.Inv)
    (hx : busTarget size a = some x) (hcmd : x ≠ .reg .cmd) : (s.busWrite w x).Inv := by
  cases x with
  | reg r => exact hs.congr (writeReg_pb s r w) (writeReg_fb s r w) (writeReg_ctl s w fun hr => hcmd (hr ▸ rfl))
  | byte buf o =>
    obtain ⟨hbody, hreport⟩ := s.inv_iff.1 hs
    exact (State.inv_iff _).2 ⟨hbody.store (busTarget_byte_lt hx), hreport.congr (State.store_ctl _ _ _ _)⟩
  | reserved => exact hs

theorem hostAccess_inv {a : HostAccess} {s t : State} (hs : s.Inv) (h : hostAccess a s = .next t) : t.Inv := by
  have hanswer : ∀ v, (s.answer v).Inv := fun v => hs.congr rfl rfl rfl
  cases a with
  | reset =>
    cases h
    exact inv_of_reset (Memory.bounded_nil _) (Memory.bounded_nil _) rfl
  | read size addr =>
    simp only [hostAccess] at h
    split at h <;> cases h
    exact hanswer _
  | write size addr w =>
    cases hx : busTarget size addr.toNat with
    | none => simp only [hostAccess, hx] at h; cases h
    | some x =>
      by_cases hcmd : x = .reg .cmd
      · subst hcmd
        simp only [hostAccess, hx] at h
        exact commandWrite_inv (hanswer none) h
      · rw [hostAccess_write hx hcmd] at h
        cases h
        exact busWrite_inv w (hanswer none) hx hcmd

/-- Settles O55: the registers are at their reset values and both buffers list nothing. -/
theorem invariantHoldsAtReset : Obligations.InvariantHoldsAtReset :=
  inv_of_reset (Memory.bounded_nil _) (Memory.bounded_nil _) rfl

/-- Settles O56: an idle step holds the state, and every access of the host keeps the invariant. -/
theorem everyStepKeepsTheInvariant : Obligations.EveryStepKeepsTheInvariant := by
  intro s t hs h
  cases hp : s.pending with
  | nil =>
    simp only [step, hostStep, hp] at h
    cases h
    exact hs
  | cons a rest =>
    rw [step_cons hp] at h
    exact hostAccess_inv (s := s.withPending rest) (hs.congr rfl rfl rfl) h

end Sys2Proof.Machine
end

section
/-! PROOFS. Updates: changes of the state that put fixed values in fixed places. A command whose body is one update on
two states leaves each register and byte equal in both, or as it was in both; and what an update does not write it
keeps. -/

namespace Sys2Proof.Machine

/-! ## Updates -/

/-- `f` keeps every register, or writes it, being one of `regs`, with a value that does not depend on the state; and so
for every byte, the written ones lying below `hi`. -/
structure Update (f : State → State) (regs : List Reg) (hi : Buf → Nat) : Prop where
  reg : ∀ r, (∀ s, (f s).reg r = s.reg r) ∨ (r ∈ regs ∧ ∀ s t, (f s).reg r = (f t).reg r)
  byte : ∀ buf a, (∀ s, (f s).byteAt buf a = s.byteAt buf a) ∨
    (a < hi buf ∧ ∀ s t, (f s).byteAt buf a = (f t).byteAt buf a)
  host : ∀ s, sameHost s (f s)

section
variable {f g : State → State} {regs more written : List Reg} {hi top : Buf → Nat}

theorem update_id : Update id regs hi :=
  ⟨fun _ => .inl fun _ => rfl, fun _ _ => .inl fun _ => rfl, fun _ => ⟨rfl, rfl, rfl⟩⟩

theorem Update.comp (hg : Update g regs hi) (hf : Update f regs hi) : Update (fun s => g (f s)) regs hi where
  reg r := by
    rcases hg.reg r with keep | ⟨hr, same⟩
    · rcases hf.reg r with keep' | ⟨hr, same'⟩
      · exact .inl fun s => (keep _).trans (keep' s)
      · exact .inr ⟨hr, fun s t => by rw [keep, keep, same' s t]⟩
    · exact .inr ⟨hr, fun s t => same _ _⟩
  byte buf a := by
    rcases hg.byte buf a with keep | ⟨ha, same⟩
    · rcases hf.byte buf a with keep' | ⟨ha, same'⟩
      · exact .inl fun s => (keep _).trans (keep' s)
      · exact .inr ⟨ha, fun s t => by rw [keep, keep, same' s t]⟩
    · exact .inr ⟨ha, fun s t => same _ _⟩
  host s := by
    obtain ⟨hp, hr, he⟩ := hf.host s
    obtain ⟨hp', hr', he'⟩ := hg.host (f s)
    exact ⟨hp'.trans hp, hr'.trans hr, he'.trans he⟩

theorem Update.mono (h : Update f regs hi) (hregs : regs ⊆ more) (hhi : ∀ buf, hi buf ≤ top buf) :
    Update f more top :=
  ⟨fun r => (h.reg r).imp_right fun ⟨hr, same⟩ => ⟨hregs hr, same⟩,
    fun buf a => (h.byte buf a).imp_right fun ⟨ha, same⟩ => ⟨ha.trans_le (hhi buf), same⟩, h.host⟩

/-- An update of registers alone. -/
theorem update_of_regs (hsub : written ⊆ regs) (hw : ∀ r ∈ written, ∀ s t, (f s).reg r = (f t).reg r)
    (hk : ∀ s r, r ∉ written → (f s).reg r = s.reg r) (hb : ∀ s buf a, (f s).byteAt buf a = s.byteAt buf a)
    (hh : ∀ s, sameHost s (f s)) : Update f regs hi where
  reg r := by
    by_cases hr : r ∈ written
    · exact .inr ⟨hsub hr, hw r hr⟩
    · exact .inl fun s => hk s r hr
  byte buf a := .inl fun s => hb s buf a
  host := hh

/-! ### What an update leaves alone, and what two runs of it leave -/

theorem Update.sameRegsExcept (h : Update f regs hi) (s : State) : sameRegsExcept s (f s) regs := fun r hr =>
  (h.reg r).elim (fun keep => keep s) fun ⟨hm, _⟩ => absurd hm hr

theorem Update.sameOutside (h : Update f regs hi) (s : State) (buf : Buf) : sameOutside buf 0 (hi buf) s (f s) :=
  fun a ha => (h.byte buf a).elim (fun keep => keep s) fun ⟨hlt, _⟩ => absurd ⟨Nat.zero_le a, hlt⟩ ha

theorem Update.reg_agrees (h : Update f regs hi) (s t : State) (r : Reg) :
    (f s).reg r = (f t).reg r ∨ ((f s).reg r = s.reg r ∧ (f t).reg r = t.reg r) :=
  (h.reg r).elim (fun keep => .inr ⟨keep s, keep t⟩) fun ⟨_, same⟩ => .inl (same s t)

theorem Update.byte_agrees (h : Update f regs hi) (s t : State) (buf : Buf) (a : Nat) :
    (f s).byteAt buf a = (f t).byteAt buf a ∨
      ((f s).byteAt buf a = s.byteAt buf a ∧ (f t).byteAt buf a = t.byteAt buf a) :=
  (h.byte buf a).elim (fun keep => .inr ⟨keep s, keep t⟩) fun ⟨_, same⟩ => .inl (same s t)

/-- A register equal in two states is equal after an update of both. -/
theorem Update.reg_eq (h : Update f regs hi) {s t : State} {r : Reg} (hr : s.reg r = t.reg r) :
    (f s).reg r = (f t).reg r :=
  (h.reg_agrees s t r).elim id fun ⟨hs, ht⟩ => by rw [hs, ht, hr]

/-! ### The operations of 10_state.md R32 are updates -/

theorem update_setCrc8r (v : Byte) (h : [.crc8r] ⊆ regs) : Update (·.setCrc8r v) regs hi :=
  update_of_regs h (by simp) (fun s _ => State.reg_setCrc8r s v) (fun s => State.byteAt_setCrc8r s v)
    fun _ => ⟨rfl, rfl, rfl⟩

theorem update_setCrc16r (v : Half) (h : [.crc16r] ⊆ regs) : Update (·.setCrc16r v) regs hi :=
  update_of_regs h (by simp) (fun s _ => State.reg_setCrc16r s v) (fun s => State.byteAt_setCrc16r s v)
    fun _ => ⟨rfl, rfl, rfl⟩

theorem update_setFlen (n : Nat) (h : [.flen] ⊆ regs) : Update (·.setFlen n) regs hi :=
  update_of_regs h (by simp) (fun s _ => State.reg_setFlen s n) (fun s => State.byteAt_setFlen s n)
    fun _ => ⟨rfl, rfl, rfl⟩

theorem update_setPlen (n : Nat) (h : [.plen] ⊆ regs) : Update (·.setPlen n) regs hi :=
  update_of_regs h (by simp) (fun s _ => State.reg_setPlen s n) (fun s => State.byteAt_setPlen s n)
    fun _ => ⟨rfl, rfl, rfl⟩

theorem update_setFdl (n : Nat) (h : [.fdl] ⊆ regs) : Update (·.setFdl n) regs hi :=
  update_of_regs h (by simp) (fun s _ => State.reg_setFdl s n) (fun s => State.byteAt_setFdl s n)
    fun _ => ⟨rfl, rfl, rfl⟩

theorem update_setHcs (v : Byte) (h : [.hcs] ⊆ regs) : Update (·.setHcs v) regs hi :=
  update_of_regs h (by simp) (fun s _ => State.reg_setHcs s v) (fun s => State.byteAt_setHcs s v)
    fun _ => ⟨rfl, rfl, rfl⟩

theorem update_setSfrcs (v : Half) (h : [.sfrcs] ⊆ regs) : Update (·.setSfrcs v) regs hi :=
  update_of_regs h (by simp) (fun s _ => State.reg_setSfrcs s v) (fun s => State.byteAt_setSfrcs s v)
    fun _ => ⟨rfl, rfl, rfl⟩

theorem update_setFlags (v : Byte) (h : [.flags] ⊆ regs) : Update (·.setFlags v) regs hi :=
  update_of_regs h (by simp) (fun s _ => State.reg_setFlags s v) (fun s => State.byteAt_setFlags s v)
    fun _ => ⟨rfl, rfl, rfl⟩

theorem update_setBfbyte (v : Byte) (h : [.bfbyte] ⊆ regs) : Update (·.setBfbyte v) regs hi :=
  update_of_regs h (by simp) (fun s _ => State.reg_setBfbyte s v) (fun s => State.byteAt_setBfbyte s v)
    fun _ => ⟨rfl, rfl, rfl⟩

theorem update_setBfValues (vs : List Nat)
    (h : [.bfv0, .bfv1, .bfv2, .bfv3, .bfv4, .bfv5, .bfv6, .bfv7] ⊆ regs) : Update (·.setBfValues vs) regs hi :=
  update_of_regs h (by simp) (fun s _ => State.reg_setBfValues s vs) (fun s => State.byteAt_setBfValues s vs)
    fun _ => ⟨rfl, rfl, rfl⟩

theorem update_setFlagFields (a b c d e : Byte) (h : [.prf, .rte, .ena, .cmp, .pr] ⊆ regs) :
    Update (·.setFlagFields a b c d e) regs hi :=
  update_of_regs h (by simp) (fun s _ => State.reg_setFlagFields s a b c d e)
    (fun s => State.byteAt_setFlagFields s a b c d e) fun _ => ⟨rfl, rfl, rfl⟩

theorem update_setPhase (p : Phase) (n : Nat) (h : [.phase, .cur] ⊆ regs) : Update (·.setPhase p n) regs hi :=
  update_of_regs h (by simp) (fun s _ => State.reg_setPhase s p n) (fun s => State.byteAt_setPhase s p n)
    fun _ => ⟨rfl, rfl, rfl⟩

theorem update_loadHeader (h : Header) (hcs flags : Byte) (hsub : loadedRegs ⊆ regs) :
    Update (·.loadHeader h hcs flags) regs hi :=
  update_of_regs hsub (by simp [loadedRegs]) (fun s _ => State.reg_loadHeader s h hcs flags)
    (fun s => State.byteAt_loadHeader s h hcs flags) fun _ => ⟨rfl, rfl, rfl⟩

theorem update_startCommand (w : Word) (h : reportRegs ⊆ regs) : Update (·.startCommand w) regs hi :=
  update_of_regs (written := [.cmd, .status]) (List.Subset.trans (by decide) h) (by simp)
    (fun s _ => State.reg_startCommand s w) (fun s => State.byteAt_startCommand s w) fun _ => ⟨rfl, rfl, rfl⟩

theorem update_complete (o : Option Err) (h : reportRegs ⊆ regs) : Update (·.complete o) regs hi := by
  have hsub : [.errcode, .errfield, .errofs, .status] ⊆ regs := List.Subset.trans (by decide) h
  cases o with
  | none =>
    exact update_of_regs hsub (by simp [State.complete]) (fun s _ => State.reg_finish s) State.byteAt_finish
      fun _ => ⟨rfl, rfl, rfl⟩
  | some e =>
    exact update_of_regs hsub (by simp [State.complete]) (fun s _ => State.reg_raise s e)
      (fun s => State.byteAt_raise s e) fun _ => ⟨rfl, rfl, rfl⟩

theorem mem_allRegs (r : Reg) : r ∈ allRegs := by cases r <;> decide

theorem update_clearRegisters : Update State.clearRegisters (allRegs ++ reportRegs) hi where
  reg r := .inr ⟨List.mem_append_left _ (mem_allRegs r), fun s t => by cases r <;> rfl⟩
  byte buf a := .inl fun s => State.byteAt_clearRegisters s buf a
  host _ := ⟨rfl, rfl, rfl⟩

theorem update_store (buf : Buf) (bs : List Byte) (h : bs.length ≤ hi buf) : Update (·.store buf 0 bs) regs hi where
  reg r := .inl fun s => State.reg_store s buf 0 bs r
  byte other a := by
    by_cases hb : other = buf
    · subst hb
      by_cases ha : 0 ≤ a ∧ a < 0 + bs.length
      · refine .inr ⟨by omega, fun s t => ?_⟩
        rw [State.byteAt_store, State.byteAt_store, if_pos ha, if_pos ha]
      · exact .inl fun s => by rw [State.byteAt_store, if_neg ha]
    · exact .inl fun s => State.byteAt_store_ne s hb 0 a bs
  host s := ⟨State.store_pending _ _ _ _, State.store_reply _ _ _ _, State.store_epoch _ _ _ _⟩

end

end Sys2Proof.Machine
end

section
/-! PROOFS. From two states that agree on what a command reads (10_state.md R32), its body is one and the same
update. -/

namespace Sys2Proof.Machine

/-! ## Agreement -/

/-- The states agree on the registers and the buffer bytes the command reads in the first. -/
structure AgreeOnReads (i : Instr) (s₁ s₂ : State) : Prop where
  reg : ∀ r ∈ readRegs s₁ i, s₁.reg r = s₂.reg r
  byte : ∀ buf a, (readSpan s₁ i buf).1 ≤ a → a < (readSpan s₁ i buf).2 → s₁.byteAt buf a = s₂.byteAt buf a

theorem agreeOnReads_refl (i : Instr) (s : State) : AgreeOnReads i s s := ⟨fun _ _ => rfl, fun _ _ _ _ => rfl⟩

theorem readRegs_startCommand (s : State) (w : Word) (i : Instr) : readRegs (s.startCommand w) i = readRegs s i := rfl

theorem headerGood_startCommand (s : State) (w : Word) : (s.startCommand w).headerGood ↔ s.headerGood := by
  simp [State.headerGood, State.spanThere, State.headerChecksumGood, State.versionGood, State.lengthGood,
    State.fbNat]

theorem readSpan_startCommand (s : State) (w : Word) (i : Instr) (buf : Buf) :
    readSpan (s.startCommand w) i buf = readSpan s i buf := by
  cases i with
  | pktdec =>
    cases buf with
    | pb => rfl
    | fb =>
      simp only [readSpan, headerGood_startCommand]
      rfl
  | _ => cases buf <;> rfl

theorem AgreeOnReads.startCommand {i : Instr} {s₁ s₂ : State} (h : AgreeOnReads i s₁ s₂) (w : Word) :
    AgreeOnReads i (s₁.startCommand w) (s₂.startCommand w) where
  reg r hr := (update_startCommand w (List.Subset.refl reportRegs) (hi := fun _ => 0)).reg_eq
    (h.reg r (readRegs_startCommand s₁ w i ▸ hr))
  byte buf a := by
    rw [readSpan_startCommand, State.byteAt_startCommand, State.byteAt_startCommand]
    exact h.byte buf a

/-- A register that reads equal holds an equal value. -/
theorem eq_of_setWidth_eq {n : Nat} (hn : n ≤ 32) {v w : BitVec n} (h : v.setWidth 32 = w.setWidth 32) : v = w :=
  BitVec.eq_of_toNat_eq (by rw [← setWidth_toNat_of_le v hn, h, setWidth_toNat_of_le w hn])

/-! ## One update -/

/-- The registers a body may write (10_state.md R32): those of its row when it succeeds, and in PKTDEC, which keeps what
each completed phase wrote (45_packet_codec.md R98); otherwise PHASE and CUR in HDRDEC, and none elsewhere. -/
def bodyRegs (i : Instr) : Option Err → List Reg
  | none => writtenRegs i
  | some _ => if i = .pktdec then writtenRegs i else if i = .hdrdec then [.phase, .cur] else []

/-- The bytes of the "writes" column of 10_state.md R32, below an offset that the command leaves in a register. -/
def writtenSpan (t : State) : Instr → Buf → Nat
  | .hdrenc, .fb => t.regNat .hl
  | .pktenc, .fb => t.regNat .flen
  | .pktdec, .pb => t.regNat .fdl
  | _, _ => 0

/-- The bytes a body may write: those of its row when it succeeds, and in PKTDEC; otherwise none. -/
def bodySpan (i : Instr) (o : Option Err) (t : State) (buf : Buf) : Nat :=
  if o = none ∨ i = .pktdec then writtenSpan t i buf else 0

/-- On both states the body is one update, within the row of the command, and raises the same error, if any. -/
def OneUpdate (i : Instr) (s₁ s₂ : State) : Prop :=
  ∃ f o, commandBody i s₁ = (f s₁, o) ∧ commandBody i s₂ = (f s₂, o) ∧ Update f (bodyRegs i o) (bodySpan i o (f s₁))

section
variable {i : Instr} {s₁ s₂ : State} {f : State → State} {e : Err}

theorem oneUpdate_error (h₁ : commandBody i s₁ = (s₁, some e)) (h₂ : commandBody i s₂ = (s₂, some e)) :
    OneUpdate i s₁ s₂ := ⟨id, some e, h₁, h₂, update_id⟩

theorem oneUpdate_ok (h₁ : commandBody i s₁ = (f s₁, none)) (h₂ : commandBody i s₂ = (f s₂, none))
    (hf : Update f (writtenRegs i) (writtenSpan (f s₁) i)) : OneUpdate i s₁ s₂ :=
  ⟨f, none, h₁, h₂, hf.mono (List.Subset.refl _) fun _ => (if_pos (.inl rfl)).ge⟩

/-! ## The CRC commands -/

theorem crcOperands_eq (hrs : s₁.reg .rs = s₂.reg .rs) (hrl : s₁.reg .rl = s₂.reg .rl)
    (hbyte : ∀ a, s₁.regNat .rs ≤ a → a < s₁.regNat .rs + s₁.regNat .rl → s₁.byteAt .fb a = s₂.byteAt .fb a) :
    rangeError Config.hardware s₁ = rangeError Config.hardware s₂ ∧ s₁.crcRange = s₂.crcRange := by
  have hstart : s₁.rangeStart = s₂.rangeStart := congrArg BitVec.toNat (eq_of_setWidth_eq (by decide) hrs)
  have hlen : s₁.rangeLength = s₂.rangeLength := congrArg BitVec.toNat (eq_of_setWidth_eq (by decide) hrl)
  refine ⟨by simp only [rangeError, hstart, hlen], ?_⟩
  simp only [State.regNat_rs, State.regNat_rl] at hbyte
  rw [State.crcRange, State.crcRange, ← hstart, ← hlen]
  exact State.slice_congr fun k hk => hbyte _ (Nat.le_add_right _ _) (Nat.add_lt_add_left hk _)

theorem crc8Command_error {cfg : Config} {s : State} (h : rangeError cfg s = some e) :
    crc8Command cfg s = (s, some e) := by simp only [crc8Command, h]

theorem crc8Command_ok {cfg : Config} {s : State} (h : rangeError cfg s = none) :
    crc8Command cfg s = (s.setCrc8r (crc8 cfg s.crcRange), none) := by simp only [crc8Command, h]

theorem crc8_oneUpdate (h : AgreeOnReads .crc8 s₁ s₂) : OneUpdate .crc8 s₁ s₂ := by
  obtain ⟨herr, hrange⟩ := crcOperands_eq (h.reg .rs (by simp [readRegs])) (h.reg .rl (by simp [readRegs]))
    (h.byte .fb)
  cases he : rangeError Config.hardware s₁ with
  | some e => exact oneUpdate_error (crc8Command_error he) (crc8Command_error (herr ▸ he))
  | none =>
    have hrun := crc8Command_ok (herr ▸ he : rangeError Config.hardware s₂ = none)
    rw [← hrange] at hrun
    exact oneUpdate_ok (f := (·.setCrc8r _)) (crc8Command_ok he) hrun (update_setCrc8r _ (by decide))

theorem crc16Command_error {cfg : Config} {s : State} (h : rangeError cfg s = some e) :
    crc16Command cfg s = (s, some e) := by simp only [crc16Command, h]

theorem crc16Command_ok {cfg : Config} {s : State} (h : rangeError cfg s = none) :
    crc16Command cfg s = (s.setCrc16r (crc16 cfg s.crcRange), none) := by simp only [crc16Command, h]

theorem crc16_oneUpdate (h : AgreeOnReads .crc16 s₁ s₂) : OneUpdate .crc16 s₁ s₂ := by
  obtain ⟨herr, hrange⟩ := crcOperands_eq (h.reg .rs (by simp [readRegs])) (h.reg .rl (by simp [readRegs]))
    (h.byte .fb)
  cases he : rangeError Config.hardware s₁ with
  | some e => exact oneUpdate_error (crc16Command_error he) (crc16Command_error (herr ▸ he))
  | none =>
    have hrun := crc16Command_ok (herr ▸ he : rangeError Config.hardware s₂ = none)
    rw [← hrange] at hrun
    exact oneUpdate_ok (f := (·.setCrc16r _)) (crc16Command_ok he) hrun (update_setCrc16r _ (by decide))

/-! ## The bit-field commands -/

theorem bfCheck_of_count {n : Nat} (hn : n = 0 ∨ 8 < n) (ws : List Nat) :
    bfCheck n ws = .error ⟨.bitFieldBadWidths, regNum .bfn, n⟩ := if_pos hn

/-- The widths are the numbers in the width operands. -/
theorem widths_eq_map {s : State} (hn : s.regNat .bfn ≤ 8) : s.widths = s.widthOperands.map s.regNat := by
  rw [State.widthOperands, if_pos hn, List.map_take, State.widths, State.pairCount, ← State.regNat_bfn]
  simp [State.allWidths]

/-- The values are the numbers in the value operands. -/
theorem values_eq_map {s : State} (hn : s.regNat .bfn ≤ 8) : s.values = s.valueOperands.map s.regNat := by
  rw [State.valueOperands, if_pos hn, List.map_take, State.values, State.pairCount, ← State.regNat_bfn]
  simp [State.allValues]

theorem operands_eq {l : List Reg} (h : ∀ r ∈ l, s₁.reg r = s₂.reg r) : l.map s₁.regNat = l.map s₂.regNat :=
  List.map_congr_left fun r hr => State.regNat_congr (h r hr)

theorem widths_eq (hn : s₁.regNat .bfn ≤ 8) (hbfn : s₁.regNat .bfn = s₂.regNat .bfn)
    (h : ∀ r ∈ s₁.widthOperands, s₁.reg r = s₂.reg r) : s₁.widths = s₂.widths := by
  have hops : s₁.widthOperands = s₂.widthOperands := by simp only [State.widthOperands, hbfn]
  rw [widths_eq_map hn, widths_eq_map (hbfn ▸ hn), ← hops, operands_eq h]

theorem values_eq (hn : s₁.regNat .bfn ≤ 8) (hbfn : s₁.regNat .bfn = s₂.regNat .bfn)
    (h : ∀ r ∈ s₁.valueOperands, s₁.reg r = s₂.reg r) : s₁.values = s₂.values := by
  have hops : s₁.valueOperands = s₂.valueOperands := by simp only [State.valueOperands, hbfn]
  rw [values_eq_map hn, values_eq_map (hbfn ▸ hn), ← hops, operands_eq h]

/-- The width test answers alike: a count above 8 is refused before any width is read. -/
theorem bfCheck_eq (hbfn : s₁.reg .bfn = s₂.reg .bfn) (h : ∀ r ∈ s₁.widthOperands, s₁.reg r = s₂.reg r) :
    bfCheck s₁.pairCount s₁.widths = bfCheck s₂.pairCount s₂.widths := by
  have hbfn' := State.regNat_congr hbfn
  have hcount : s₁.pairCount = s₂.pairCount := congrArg BitVec.toNat (eq_of_setWidth_eq (by decide) hbfn)
  rw [← hcount]
  by_cases hn : s₁.regNat .bfn ≤ 8
  · rw [widths_eq hn hbfn' h]
  · have hbad : s₁.pairCount = 0 ∨ 8 < s₁.pairCount := .inr (by simpa [State.pairCount] using hn)
    rw [bfCheck_of_count hbad, bfCheck_of_count hbad]

theorem bfn_le_of_bfCheck {s : State} {u : Unit} (h : bfCheck s.pairCount s.widths = .ok u) : s.regNat .bfn ≤ 8 := by
  obtain ⟨-, hn, -⟩ := bfCheck_inv h
  rwa [State.regNat_bfn]

theorem bfpackCommand_badWidths {s : State} (h : bfCheck s.pairCount s.widths = .error e) :
    bfpackCommand s = (s, some e) := by simp only [bfpackCommand, h]

theorem bfpackCommand_overflow {s : State} {u : Unit} (h : bfCheck s.pairCount s.widths = .ok u)
    (hp : bfPack s.values s.widths = .error e) : bfpackCommand s = (s, some e) := by
  simp only [bfpackCommand, h, hp]

theorem bfpackCommand_ok {s : State} {u : Unit} {b : Byte} (h : bfCheck s.pairCount s.widths = .ok u)
    (hp : bfPack s.values s.widths = .ok b) : bfpackCommand s = (s.setBfbyte b, none) := by
  simp only [bfpackCommand, h, hp]

theorem bfpack_oneUpdate (h : AgreeOnReads .bfpack s₁ s₂) : OneUpdate .bfpack s₁ s₂ := by
  have hbfn := h.reg .bfn (by simp [readRegs])
  have hw : ∀ r ∈ s₁.widthOperands, s₁.reg r = s₂.reg r := fun r hr => h.reg r (by simp [readRegs, hr])
  have hv : ∀ r ∈ s₁.valueOperands, s₁.reg r = s₂.reg r := fun r hr => h.reg r (by simp [readRegs, hr])
  have hcheck := bfCheck_eq hbfn hw
  cases hc : bfCheck s₁.pairCount s₁.widths with
  | error e => exact oneUpdate_error (bfpackCommand_badWidths hc) (bfpackCommand_badWidths (hcheck ▸ hc))
  | ok u =>
    have hn := bfn_le_of_bfCheck hc
    have hpack : bfPack s₁.values s₁.widths = bfPack s₂.values s₂.widths := by
      rw [widths_eq hn (State.regNat_congr hbfn) hw, values_eq hn (State.regNat_congr hbfn) hv]
    cases hp : bfPack s₁.values s₁.widths with
    | error e =>
      exact oneUpdate_error (bfpackCommand_overflow hc hp) (bfpackCommand_overflow (hcheck ▸ hc) (hpack ▸ hp))
    | ok b =>
      exact oneUpdate_ok (f := (·.setBfbyte b)) (bfpackCommand_ok hc hp)
        (bfpackCommand_ok (hcheck ▸ hc) (hpack ▸ hp)) (update_setBfbyte b (by decide))

theorem bfunpackCommand_error {s : State} (h : bfCheck s.pairCount s.widths = .error e) :
    bfunpackCommand s = (s, some e) := by simp only [bfunpackCommand, h]

theorem bfunpackCommand_ok {s : State} {u : Unit} (h : bfCheck s.pairCount s.widths = .ok u) :
    bfunpackCommand s = (s.setBfValues (bfUnpack s.bf.bfbyte s.widths), none) := by simp only [bfunpackCommand, h]

theorem bfunpack_oneUpdate (h : AgreeOnReads .bfunpack s₁ s₂) : OneUpdate .bfunpack s₁ s₂ := by
  have hbfn := h.reg .bfn (by simp [readRegs])
  have hbyte : s₁.bf.bfbyte = s₂.bf.bfbyte := eq_of_setWidth_eq (by decide) (h.reg .bfbyte (by simp [readRegs]))
  have hw : ∀ r ∈ s₁.widthOperands, s₁.reg r = s₂.reg r := fun r hr => h.reg r (by simp [readRegs, hr])
  have hcheck := bfCheck_eq hbfn hw
  cases hc : bfCheck s₁.pairCount s₁.widths with
  | error e => exact oneUpdate_error (bfunpackCommand_error hc) (bfunpackCommand_error (hcheck ▸ hc))
  | ok u =>
    have hrun := bfunpackCommand_ok (hcheck ▸ hc)
    rw [← widths_eq (bfn_le_of_bfCheck hc) (State.regNat_congr hbfn) hw, ← hbyte] at hrun
    exact oneUpdate_ok (f := (·.setBfValues _)) (bfunpackCommand_ok hc) hrun (update_setBfValues _ (by decide))

/-! ## The flag commands -/

/-- `flags_pack` of the five field registers. -/
def State.packedFlags (s : State) : Except Err Byte := flagsPack s.hdr.prf s.hdr.rte s.hdr.ena s.hdr.cmp s.hdr.pr

theorem flgpackCommand_error {s : State} (h : s.packedFlags = .error e) :
    flgpackCommand s = (s, some ⟨.bitFieldOverflow, regNum .prf + e.ofs, e.ofs⟩) := by
  rw [State.packedFlags] at h
  simp only [flgpackCommand, h]

theorem flgpackCommand_ok {s : State} {b : Byte} (h : s.packedFlags = .ok b) :
    flgpackCommand s = (s.setFlags b, none) := by
  rw [State.packedFlags] at h
  simp only [flgpackCommand, h]

theorem flgpack_oneUpdate (h : AgreeOnReads .flgpack s₁ s₂) : OneUpdate .flgpack s₁ s₂ := by
  have hpack : s₁.packedFlags = s₂.packedFlags := by
    have hprf : s₁.hdr.prf = s₂.hdr.prf := eq_of_setWidth_eq (by decide) (h.reg .prf (by simp [readRegs]))
    have hrte : s₁.hdr.rte = s₂.hdr.rte := eq_of_setWidth_eq (by decide) (h.reg .rte (by simp [readRegs]))
    have hena : s₁.hdr.ena = s₂.hdr.ena := eq_of_setWidth_eq (by decide) (h.reg .ena (by simp [readRegs]))
    have hcmp : s₁.hdr.cmp = s₂.hdr.cmp := eq_of_setWidth_eq (by decide) (h.reg .cmp (by simp [readRegs]))
    have hpr : s₁.hdr.pr = s₂.hdr.pr := eq_of_setWidth_eq (by decide) (h.reg .pr (by simp [readRegs]))
    simp only [State.packedFlags, hprf, hrte, hena, hcmp, hpr]
  cases hp : s₁.packedFlags with
  | error e => exact oneUpdate_error (flgpackCommand_error hp) (flgpackCommand_error (hpack ▸ hp))
  | ok b =>
    exact oneUpdate_ok (f := (·.setFlags b)) (flgpackCommand_ok hp) (flgpackCommand_ok (hpack ▸ hp))
      (update_setFlags b (by decide))

/-- What FLGUNPACK writes for the flag byte `b` (42_bitfield.md R82). -/
def writeFlagFields (b : Byte) (s : State) : State :=
  s.setFlagFields (flagPrf b) (flagRte b) (flagEna b) (flagCmp b) (flagPr b)

theorem flgunpackCommand_eq (s : State) : flgunpackCommand s = (writeFlagFields s.hdr.flags s, none) := rfl

theorem flgunpack_oneUpdate (h : AgreeOnReads .flgunpack s₁ s₂) : OneUpdate .flgunpack s₁ s₂ := by
  have hflags : s₁.hdr.flags = s₂.hdr.flags := eq_of_setWidth_eq (by decide) (h.reg .flags (by simp [readRegs]))
  have hrun := flgunpackCommand_eq s₂
  rw [← hflags] at hrun
  exact oneUpdate_ok (f := writeFlagFields _) (flgunpackCommand_eq s₁) hrun (update_setFlagFields _ _ _ _ _ (by decide))

/-! ## The encoders -/

theorem visible_of_rte_ne {h : Header} (hr : h.rte ≠ 1) : h.visible = { h with pra := 0, rca := 0, ttl := 0 } :=
  if_neg hr

/-- The encoder reads PRA, RCA and TTL only when RTE is 1 (41_header_codec.md R68). -/
theorem hdrEnc_visible (cfg : Config) (h : Header) : hdrEnc cfg h.visible = hdrEnc cfg h := by
  by_cases hr : h.rte = 1
  · rw [Header.visible, if_pos hr]
  · have hbytes : ∀ f, headerBytes { h with pra := 0, rca := 0, ttl := 0 } f = headerBytes h f := fun f => by
      simp only [headerBytes, routingBytes, if_neg hr]
    rw [visible_of_rte_ne hr]
    simp only [hdrEnc, hbytes]
    rfl

/-- Equal header operands encode alike with any length. -/
theorem hdrEnc_withLength_eq (h : ∀ r ∈ s₁.headerOperands, s₁.reg r = s₂.reg r) (cfg : Config) (n : Nat) :
    hdrEnc cfg (s₁.header.withLength n) = hdrEnc cfg (s₂.header.withLength n) := by
  have fixed : ∀ r ∈ ([.prv, .skid, .prf, .rte, .ena, .cmp, .pr, .hl, .he, .pid, .pt] : List Reg),
      s₁.reg r = s₂.reg r := fun r hr => h r (List.mem_append_left _ hr)
  have hprv : s₁.hdr.prv = s₂.hdr.prv := eq_of_setWidth_eq (by decide) (fixed .prv (by decide))
  have hskid : s₁.hdr.skid = s₂.hdr.skid := eq_of_setWidth_eq (by decide) (fixed .skid (by decide))
  have hprf : s₁.hdr.prf = s₂.hdr.prf := eq_of_setWidth_eq (by decide) (fixed .prf (by decide))
  have hrte : s₁.hdr.rte = s₂.hdr.rte := eq_of_setWidth_eq (by decide) (fixed .rte (by decide))
  have hena : s₁.hdr.ena = s₂.hdr.ena := eq_of_setWidth_eq (by decide) (fixed .ena (by decide))
  have hcmp : s₁.hdr.cmp = s₂.hdr.cmp := eq_of_setWidth_eq (by decide) (fixed .cmp (by decide))
  have hpr : s₁.hdr.pr = s₂.hdr.pr := eq_of_setWidth_eq (by decide) (fixed .pr (by decide))
  have hhl : s₁.hdr.hl = s₂.hdr.hl := eq_of_setWidth_eq (by decide) (fixed .hl (by decide))
  have hhe : s₁.hdr.he = s₂.hdr.he := eq_of_setWidth_eq (by decide) (fixed .he (by decide))
  have hpid : s₁.hdr.pid = s₂.hdr.pid := eq_of_setWidth_eq (by decide) (fixed .pid (by decide))
  have hpt : s₁.hdr.pt = s₂.hdr.pt := eq_of_setWidth_eq (by decide) (fixed .pt (by decide))
  have hvisible : (s₁.header.withLength n).visible = (s₂.header.withLength n).visible := by
    by_cases hr : s₁.hdr.rte = 1
    · have routing : ∀ r ∈ ([.pra, .rca, .ttl] : List Reg), s₁.reg r = s₂.reg r := fun r hm =>
        h r (List.mem_append_right _ (by rwa [if_pos (by rw [State.regNat_rte, hr]; rfl)]))
      have hpra : s₁.hdr.pra = s₂.hdr.pra := eq_of_setWidth_eq (by decide) (routing .pra (by decide))
      have hrca : s₁.hdr.rca = s₂.hdr.rca := eq_of_setWidth_eq (by decide) (routing .rca (by decide))
      have httl : s₁.hdr.ttl = s₂.hdr.ttl := eq_of_setWidth_eq (by decide) (routing .ttl (by decide))
      simp only [Header.withLength, State.header, hprv, hskid, hprf, hrte, hena, hcmp, hpr, hhl, hhe, hpid, hpt, hpra,
        hrca, httl]
    · have hr₂ : s₂.hdr.rte ≠ 1 := hrte ▸ hr
      rw [visible_of_rte_ne (h := s₁.header.withLength n) hr, visible_of_rte_ne (h := s₂.header.withLength n) hr₂]
      simp only [Header.withLength, State.header, hprv, hskid, hprf, hrte, hena, hcmp, hpr, hhl, hhe, hpid, hpt]
  rw [← hdrEnc_visible, hvisible, hdrEnc_visible]

theorem header_withLength_fdl (s : State) : s.header.withLength s.hdr.fdl.toNat = s.header := by
  simp [Header.withLength, State.header]

/-- What HDRENC writes for the header bytes `b` (41_header_codec.md R69). -/
def writeHeaderBytes (b : List Byte) (s : State) : State :=
  (((s.store .fb 0 b).setFlags (byteOfSeq b 2)).setHcs (byteOfSeq b (b.length - 1))).setFlen b.length

theorem hdrencCommand_ok {cfg : Config} {s : State} {b : List Byte} (h : hdrEnc cfg s.header = .ok b) :
    hdrencCommand cfg s = (writeHeaderBytes b s, none) := by simp only [hdrencCommand, h, writeHeaderBytes]

theorem hdrencCommand_error {cfg : Config} {s : State} (h : hdrEnc cfg s.header = .error e) :
    hdrencCommand cfg s = (s, some e) := by simp only [hdrencCommand, h]

theorem update_writeHeaderBytes {b : List Byte} {hi : Buf → Nat} (hb : b.length ≤ hi .fb) :
    Update (writeHeaderBytes b) (writtenRegs .hdrenc) hi :=
  (update_setFlen _ (by decide)).comp <| (update_setHcs _ (by decide)).comp <|
    (update_setFlags _ (by decide)).comp (update_store .fb b hb)

theorem hdrenc_oneUpdate (h : AgreeOnReads .hdrenc s₁ s₂) : OneUpdate .hdrenc s₁ s₂ := by
  have hfdl : s₁.hdr.fdl = s₂.hdr.fdl := eq_of_setWidth_eq (by decide) (h.reg .fdl (by simp [readRegs]))
  have henc : hdrEnc Config.hardware s₁.header = hdrEnc Config.hardware s₂.header := by
    have := hdrEnc_withLength_eq (fun r hr => h.reg r (List.mem_cons_of_mem _ hr)) Config.hardware s₁.hdr.fdl.toNat
    rwa [header_withLength_fdl, hfdl, header_withLength_fdl] at this
  cases hb : hdrEnc Config.hardware s₁.header with
  | error e => exact oneUpdate_error (hdrencCommand_error hb) (hdrencCommand_error (henc ▸ hb))
  | ok b =>
    obtain ⟨hlen, -⟩ := hdrEnc_length hardware_legal hb
    refine oneUpdate_ok (hdrencCommand_ok hb) (hdrencCommand_ok (henc ▸ hb))
      (update_writeHeaderBytes (hlen.trans_le ?_))
    exact (State.regNat_hl (writeHeaderBytes b s₁)).ge

/-- What PKTENC writes for the header bytes `b` and the payload `p` (45_packet_codec.md R95). -/
def writeFrame (b p : List Byte) (s : State) : State :=
  (((((s.store .fb 0 (b ++ payloadPart Config.hardware p)).setFdl p.length).setSfrcs
    (checksumRegister Config.hardware p)).setFlags (byteOfSeq b 2)).setHcs (byteOfSeq b (b.length - 1))).setFlen
      (frameLen b.length p.length)

theorem commitFrame_eq (s : State) (b : List Byte) : commitFrame Config.hardware s b = writeFrame b s.payload s := rfl

theorem update_writeFrame {b p : List Byte} {hi : Buf → Nat} (h : frameLen b.length p.length ≤ hi .fb) :
    Update (writeFrame b p) (writtenRegs .pktenc) hi :=
  (update_setFlen _ (by decide)).comp <| (update_setHcs _ (by decide)).comp <|
    (update_setFlags _ (by decide)).comp <| (update_setSfrcs _ (by decide)).comp <|
      (update_setFdl _ (by decide)).comp (update_store .fb _ (by rwa [length_append_payloadPart]))

theorem writeFrame_flen {b p : List Byte} (s : State) (h : frameLen b.length p.length ≤ 65553) :
    (writeFrame b p s).regNat .flen = frameLen b.length p.length := by
  rw [State.regNat_flen, writeFrame, State.setFlen_flen, BitVec.toNat_ofNat, Nat.mod_eq_of_lt (by omega)]

theorem payloadLength_le (s : State) : s.payloadLength ≤ Config.hardware.pbSize := Nat.le_of_lt_succ s.rng.plen.isLt

/-- On this hardware no payload is too long for PB, and no frame too long for FB. -/
theorem pktencCommand_hardware_ok {s : State} {b : List Byte}
    (h : hdrEnc Config.hardware (s.header.withLength s.payloadLength) = .ok b) :
    pktencCommand Config.hardware s = (writeFrame b s.payload s, none) ∧
      frameLen b.length s.payload.length ≤ 65553 := by
  obtain ⟨hlen, hhl⟩ := hdrEnc_length hardware_legal h
  have hframe : frameLen b.length s.payload.length ≤ 65553 :=
    frameLen_le (by omega) (by rw [payload_length]; exact s.rng.plen.isLt)
  exact ⟨by rw [pktencCommand_ok (payloadLength_le s) h hframe, commitFrame_eq], hframe⟩

theorem pktencCommand_hardware_error {s : State}
    (h : hdrEnc Config.hardware (s.header.withLength s.payloadLength) = .error e) :
    pktencCommand Config.hardware s = (s, some e) := by
  simp only [pktencCommand, if_neg (Nat.not_lt.2 (payloadLength_le s)), h]

theorem pktenc_oneUpdate (h : AgreeOnReads .pktenc s₁ s₂) : OneUpdate .pktenc s₁ s₂ := by
  have hlen : s₁.payloadLength = s₂.payloadLength :=
    congrArg BitVec.toNat (eq_of_setWidth_eq (by decide) (h.reg .plen (by simp [readRegs])))
  have hpayload : s₁.payload = s₂.payload := by
    rw [State.payload, State.payload, ← hlen]
    refine State.slice_congr fun k hk => h.byte .pb _ (Nat.zero_le _) ?_
    show 0 + k < s₁.regNat .plen
    rwa [Nat.zero_add, State.regNat_plen]
  have henc := hdrEnc_withLength_eq (fun r hr => h.reg r (List.mem_cons_of_mem _ hr)) Config.hardware s₁.payloadLength
  cases hb : hdrEnc Config.hardware (s₁.header.withLength s₁.payloadLength) with
  | error e =>
    exact oneUpdate_error (pktencCommand_hardware_error hb) (pktencCommand_hardware_error (by rw [← hlen, ← henc, hb]))
  | ok b =>
    obtain ⟨hrun, hframe⟩ := pktencCommand_hardware_ok hb
    obtain ⟨hrun₂, -⟩ := pktencCommand_hardware_ok (s := s₂) (by rw [← hlen, ← henc, hb])
    rw [← hpayload] at hrun₂
    exact oneUpdate_ok hrun hrun₂ (update_writeFrame (writeFrame_flen s₁ hframe).ge)

end

end Sys2Proof.Machine
end

section
/-! PROOFS. The decoders read no byte of the frame beyond the header span, nor PKTDEC beyond the end of a frame with a
good header (41_header_codec.md R71, 45_packet_codec.md R97). With the other commands: two states that agree on what a
command reads (10_state.md R32) go through one update, within the command's row of the table. -/

namespace Sys2Proof.Machine

/-! ## The decoders on byte sequences that agree at the start -/

section
variable {a b : List Byte} {k : Nat}

theorem take_of_take {j : Nat} (h : a.take k = b.take k) (hj : j ≤ k) : a.take j = b.take j := by
  rw [← Nat.min_eq_left hj, ← List.take_take, h, List.take_take]

theorem byteOfSeq_of_take {i : Nat} (h : a.take k = b.take k) (hi : i < k) : byteOfSeq a i = byteOfSeq b i := by
  have hget := congrArg (·[i]?) h
  simp only [List.getElem?_take, if_pos hi] at hget
  rw [byteOfSeq, byteOfSeq, List.getD_eq_getElem?_getD, List.getD_eq_getElem?_getD, hget]

theorem halfOfSeq_of_take {i : Nat} (h : a.take k = b.take k) (hi : i + 1 < k) : halfOfSeq a i = halfOfSeq b i := by
  rw [halfOfSeq, halfOfSeq, byteOfSeq_of_take h (by omega : i < k), byteOfSeq_of_take h hi]

/-- The header span of a byte sequence: the length field's byte is read only when four bytes are there. -/
def spanOfSeq (s : List Byte) : Nat := min s.length (max 4 (byteOfSeq s 3).toNat)

theorem decodeError_congr {cfg : Config} (hlen : a.length = b.length) (hk : spanOfSeq a ≤ k)
    (h : a.take k = b.take k) : decodeError cfg a = decodeError cfg b := by
  rw [spanOfSeq] at hk
  by_cases h4 : a.length < 4
  · simp only [decodeError, if_pos h4, if_pos (hlen ▸ h4 : b.length < 4)]
  · have h0 : byteOfSeq a 0 = byteOfSeq b 0 := byteOfSeq_of_take h (by omega)
    have h2 : byteOfSeq a 2 = byteOfSeq b 2 := byteOfSeq_of_take h (by omega)
    have h3 : byteOfSeq a 3 = byteOfSeq b 3 := byteOfSeq_of_take h (by omega)
    simp only [decodeError, ← hlen, ← h0, ← h2, ← h3]
    by_cases hz : (byteOfSeq a 3).toNat = 0
    · simp only [if_pos hz]
    · by_cases hs : a.length < (byteOfSeq a 3).toNat
      · simp only [if_pos hs]
      · have hspan : a.take ((byteOfSeq a 3).toNat - 1) = b.take ((byteOfSeq a 3).toNat - 1) :=
          take_of_take h (by omega)
        have hhcs : byteOfSeq a ((byteOfSeq a 3).toNat - 1) = byteOfSeq b ((byteOfSeq a 3).toNat - 1) :=
          byteOfSeq_of_take h (by omega)
        rw [hspan, hhcs]

/-- The routing block is read only when the RTE bit is set (41_header_codec.md R70). -/
theorem headerOfBytes_congr (h : a.take k = b.take k) (hk : 10 ≤ k)
    (hrouted : flagRte (byteOfSeq a 2) = 1 → 15 ≤ k) : headerOfBytes a = headerOfBytes b := by
  have fixed : ∀ i, i < 10 → byteOfSeq a i = byteOfSeq b i := fun i hi => byteOfSeq_of_take h (by omega)
  have halves : ∀ i, i < 9 → halfOfSeq a i = halfOfSeq b i := fun i hi => halfOfSeq_of_take h (by omega)
  simp only [headerOfBytes, ← fixed 0 (by decide), ← fixed 1 (by decide), ← fixed 2 (by decide),
    ← fixed 3 (by decide), ← fixed 4 (by decide), ← halves 5 (by decide), ← halves 7 (by decide),
    ← fixed 9 (by decide)]
  by_cases hr : flagRte (byteOfSeq a 2) = 1
  · have hk15 := hrouted hr
    rw [halfOfSeq_of_take h (by omega : 10 + 1 < k), halfOfSeq_of_take h (by omega : 12 + 1 < k),
      byteOfSeq_of_take h (by omega : 14 < k)]
  · simp only [if_neg hr]

theorem hdrDec_congr {cfg : Config} (hc : cfg.legal) (hlen : a.length = b.length) (hk : spanOfSeq a ≤ k)
    (h : a.take k = b.take k) : hdrDec cfg a = hdrDec cfg b := by
  have herr := decodeError_congr (cfg := cfg) hlen hk h
  cases he : decodeError cfg a with
  | some e => rw [hdrDec_error_iff.2 he, hdrDec_error_iff.2 (herr ▸ he)]
  | none =>
    obtain ⟨h4, -, hhl, -, -, -, himp⟩ := decodeError_eq_none.1 he
    rw [impliedLength_legal hc] at himp
    rw [spanOfSeq] at hk
    have h3 : byteOfSeq a 3 = byteOfSeq b 3 := byteOfSeq_of_take h (by omega)
    have hhcs : byteOfSeq a ((byteOfSeq a 3).toNat - 1) = byteOfSeq b ((byteOfSeq a 3).toNat - 1) :=
      byteOfSeq_of_take h (by omega)
    have hheader : headerOfBytes a = headerOfBytes b := headerOfBytes_congr h (by omega) fun hr => by
      rw [byte_eq_one_iff] at hr
      omega
    rw [hdrDec_ok_iff.2 ⟨he, rfl⟩, hdrDec_ok_iff.2 ⟨herr ▸ he, rfl⟩, hheader, hhcs, h3]

/-- The payload steps read nothing when the frame is short, and else nothing beyond its end (45_packet_codec.md R96). -/
theorem decodePayload_congr {cfg : Config} {hl fdl : Nat} (hlen : a.length = b.length)
    (hk : min a.length (frameLen hl fdl) ≤ k) (h : a.take k = b.take k) :
    decodePayload cfg a hl fdl = decodePayload cfg b hl fdl := by
  simp only [decodePayload, ← hlen]
  by_cases hs : a.length < frameLen hl fdl
  · simp only [if_pos hs]
  · by_cases hz : fdl = 0
    · simp only [if_neg hs, if_pos hz]
    · have hneed : hl + fdl + 2 ≤ k := by
        rw [frameLen, if_pos (Nat.pos_of_ne_zero hz)] at hs hk
        omega
      have hpayload : (a.drop hl).take fdl = (b.drop hl).take fdl := by
        rw [List.take_drop, List.take_drop, take_of_take h (by omega)]
      rw [hpayload, halfOfSeq_of_take h (by omega)]

end

/-! ## The decoders on two frames in FB -/

section
variable {s₁ s₂ : State} {k : Nat}

theorem frame_take_eq (hflen : s₁.frameLength = s₂.frameLength) (h : ∀ a, a < k → s₁.byteAt .fb a = s₂.byteAt .fb a) :
    s₁.frame.take k = s₂.frame.take k := by
  apply List.ext_getElem?
  intro i
  rw [List.getElem?_take, List.getElem?_take, State.frame, State.frame, State.slice_getElem?, State.slice_getElem?,
    hflen, Nat.zero_add]
  by_cases hi : i < k
  · rw [h i hi]
  · rw [if_neg hi, if_neg hi]

theorem spanOfSeq_frame (s : State) : spanOfSeq s.frame = s.headerSpan := by
  rw [spanOfSeq, State.headerSpan, frame_length, State.regNat_flen]
  by_cases h4 : 4 ≤ s.rng.flen.toNat
  · rw [if_pos h4, frame_byte s (by omega)]
    rfl
  · rw [if_neg h4]
    omega

/-- In a good header the span ends where HL says, before the frame does. -/
theorem headerSpan_le_frameNeed {s : State} (h : s.headerGood) :
    s.headerSpan ≤ min (s.regNat .flen) s.frameNeed := by
  obtain ⟨⟨h4, -, -, hspan⟩, -, -, hlen⟩ := h
  rw [State.lengthGood] at hlen
  rw [State.headerSpan, if_pos h4, State.frameNeed, State.payloadEnd]
  omega

theorem headerSpan_le_readSpan (s : State) : s.headerSpan ≤ (readSpan s .pktdec .fb).2 := by
  simp only [readSpan]
  split
  · exact headerSpan_le_frameNeed ‹_›
  · exact le_rfl

/-- What both decoders learn from the header span: the same header or the same error, and the same flag byte. -/
theorem hdrDec_frame_congr (hflen : s₁.frameLength = s₂.frameLength) (hk : s₁.headerSpan ≤ k)
    (h : ∀ a, a < k → s₁.byteAt .fb a = s₂.byteAt .fb a) :
    hdrDec Config.hardware s₁.frame = hdrDec Config.hardware s₂.frame ∧
      ∀ d, hdrDec Config.hardware s₁.frame = .ok d → s₁.byteAt .fb 2 = s₂.byteAt .fb 2 := by
  refine ⟨hdrDec_congr hardware_legal ?_ (spanOfSeq_frame s₁ ▸ hk) (frame_take_eq hflen h), fun d hd => h 2 ?_⟩
  · rw [frame_length, frame_length]
    exact hflen
  · obtain ⟨hlen, hle, -⟩ := hdrDec_consumed hardware_legal hd
    rw [← spanOfSeq_frame, spanOfSeq] at hk
    omega

end

/-! ## HDRDEC -/

section
variable {s s₁ s₂ : State} {e : Err} {d : HeaderDecoded}

/-- What the decoders write for a decoded header with the flag byte `flags` (41_header_codec.md R71). -/
def writeHeader (d : HeaderDecoded) (flags : Byte) (s : State) : State :=
  ((s.setPhase .start 0).loadHeader d.header d.hcs flags).setPhase .headerParsed d.consumed

theorem hdrdecCommand_badRange (h : frameLengthError Config.hardware s = some e) :
    hdrdecCommand Config.hardware s = (s.setPhase .start 0, some e) := by
  have h' : frameLengthError Config.hardware (s.setPhase .start 0) = some e := h
  simp only [hdrdecCommand, h']

theorem hdrdecCommand_error (h : frameLengthError Config.hardware s = none)
    (hd : hdrDec Config.hardware s.frame = .error e) :
    hdrdecCommand Config.hardware s = (s.setPhase .start 0, some e) := by
  have h' : frameLengthError Config.hardware (s.setPhase .start 0) = none := h
  simp only [hdrdecCommand, h', frame_setPhase, hd]

theorem hdrdecCommand_ok (h : frameLengthError Config.hardware s = none)
    (hd : hdrDec Config.hardware s.frame = .ok d) :
    hdrdecCommand Config.hardware s = (writeHeader d (s.byteAt .fb 2) s, none) := by
  have h' : frameLengthError Config.hardware (s.setPhase .start 0) = none := h
  simp only [hdrdecCommand, h', frame_setPhase, hd, commitHeader, State.byteAt_setPhase, writeHeader]

theorem frameLengthError_eq (hflen : s₁.frameLength = s₂.frameLength) :
    frameLengthError Config.hardware s₁ = frameLengthError Config.hardware s₂ := by
  simp only [frameLengthError, hflen]

theorem update_writeHeader (flags : Byte) {regs : List Reg} {hi : Buf → Nat} (h : loadedRegs ⊆ regs)
    (hp : [.phase, .cur] ⊆ regs) : Update (writeHeader d flags) regs hi :=
  (update_setPhase _ _ hp).comp <| (update_loadHeader _ _ _ h).comp (update_setPhase _ _ hp)

/-- Both decoders restart PHASE and CUR whatever happens. -/
theorem oneUpdate_restart {i : Instr} (hi : i = .hdrdec ∨ i = .pktdec)
    (h₁ : commandBody i s₁ = (s₁.setPhase .start 0, some e)) (h₂ : commandBody i s₂ = (s₂.setPhase .start 0, some e)) :
    OneUpdate i s₁ s₂ := by
  refine ⟨(·.setPhase .start 0), some e, h₁, h₂, update_setPhase _ _ ?_⟩
  rcases hi with rfl | rfl
  · exact List.Subset.refl ([.phase, .cur] : List Reg)
  · exact (by decide : [.phase, .cur] ⊆ writtenRegs .pktdec)

theorem hdrdec_oneUpdate (h : AgreeOnReads .hdrdec s₁ s₂) : OneUpdate .hdrdec s₁ s₂ := by
  have hflen : s₁.frameLength = s₂.frameLength :=
    congrArg BitVec.toNat (eq_of_setWidth_eq (by decide) (h.reg .flen (by simp [readRegs])))
  have hfle := frameLengthError_eq hflen
  obtain ⟨hdec, hflags⟩ := hdrDec_frame_congr hflen (Nat.le_refl s₁.headerSpan)
    fun a ha => h.byte .fb a (Nat.zero_le a) ha
  cases hf : frameLengthError Config.hardware s₁ with
  | some e => exact oneUpdate_restart (.inl rfl) (hdrdecCommand_badRange hf) (hdrdecCommand_badRange (hfle ▸ hf))
  | none =>
    cases hd : hdrDec Config.hardware s₁.frame with
    | error e =>
      exact oneUpdate_restart (.inl rfl) (hdrdecCommand_error hf hd) (hdrdecCommand_error (hfle ▸ hf) (hdec ▸ hd))
    | ok d =>
      have hrun := hdrdecCommand_ok (hfle ▸ hf) (hdec ▸ hd)
      rw [← hflags d hd] at hrun
      exact oneUpdate_ok (hdrdecCommand_ok hf hd) hrun (update_writeHeader _ (by decide) (by decide))

/-! ## PKTDEC -/

/-- How PKTDEC ends once the header is committed (45_packet_codec.md R97, R98). -/
def payloadOutcome (hl fdl : Nat) (r : PayloadResult) (u : State) : State × Option Err :=
  match r with
  | .short e => (u, some e)
  | .mismatch p rx e => ((commitPayload u p rx).setPhase .checksumFailed (frameLen hl fdl), some e)
  | .valid p rx need => ((commitPayload u p rx).setPhase .checksumValidated need, none)

/-- The payload a result stores in PB. -/
def PayloadResult.stored : PayloadResult → List Byte
  | .short _ => []
  | .mismatch p _ _ => p
  | .valid p _ _ => p

theorem decodePayload_stored_length (cfg : Config) (s : List Byte) (hl fdl : Nat) :
    (decodePayload cfg s hl fdl).stored.length ≤ fdl := by
  cases h : decodePayload cfg s hl fdl with
  | short e => exact Nat.zero_le _
  | mismatch p rx e => exact (decodePayload_mismatch h).2
  | valid p rx need => exact (decodePayload_valid h).2

theorem payloadOutcome_fdl (hl fdl : Nat) (r : PayloadResult) (u : State) :
    (payloadOutcome hl fdl r u).1.hdr.fdl = u.hdr.fdl := by cases r <;> rfl

theorem payloadOutcome_error (hl fdl : Nat) (r : PayloadResult) (u v : State) :
    (payloadOutcome hl fdl r u).2 = (payloadOutcome hl fdl r v).2 := by cases r <;> rfl

theorem update_commitPayload {p : List Byte} {rx : Half} {hi : Buf → Nat} (hp : p.length ≤ hi .pb) :
    Update (commitPayload · p rx) (writtenRegs .pktdec) hi :=
  (update_setSfrcs _ (by decide)).comp <| (update_setPlen _ (by decide)).comp (update_store .pb p hp)

theorem update_payloadOutcome {hl fdl : Nat} {r : PayloadResult} {hi : Buf → Nat} (hp : r.stored.length ≤ hi .pb) :
    Update (fun u => (payloadOutcome hl fdl r u).1) (writtenRegs .pktdec) hi := by
  cases r with
  | short e => exact update_id
  | mismatch p rx e => exact (update_setPhase _ _ (by decide)).comp (update_commitPayload hp)
  | valid p rx need => exact (update_setPhase _ _ (by decide)).comp (update_commitPayload hp)

theorem pktdecCommand_badRange (h : frameLengthError Config.hardware s = some e) :
    pktdecCommand Config.hardware s = (s.setPhase .start 0, some e) := by
  have h' : frameLengthError Config.hardware (s.setPhase .start 0) = some e := h
  simp only [pktdecCommand, h']

theorem pktdecCommand_error (h : frameLengthError Config.hardware s = none)
    (hd : hdrDec Config.hardware s.frame = .error e) :
    pktdecCommand Config.hardware s = (s.setPhase .start 0, some e) := by
  have h' : frameLengthError Config.hardware (s.setPhase .start 0) = none := h
  simp only [pktdecCommand, h', frame_setPhase, hd]

/-- On this hardware no FDL is too large for PB. -/
theorem pktdecCommand_decoded (h : frameLengthError Config.hardware s = none)
    (hd : hdrDec Config.hardware s.frame = .ok d) :
    pktdecCommand Config.hardware s = payloadOutcome d.consumed d.header.fdl.toNat
      (decodePayload Config.hardware s.frame d.consumed d.header.fdl.toNat) (writeHeader d (s.byteAt .fb 2) s) := by
  have h' : frameLengthError Config.hardware (s.setPhase .start 0) = none := h
  have hfdl : ¬Config.hardware.pbSize < d.header.fdl.toNat := Nat.not_lt.2 (Nat.le_of_lt_succ d.header.fdl.isLt)
  simp only [pktdecCommand, h', frame_setPhase, hd, if_neg hfdl]
  cases decodePayload Config.hardware s.frame d.consumed d.header.fdl.toNat <;> rfl

/-- A frame with a good header is read to its end, or to FLEN. -/
theorem readSpan_pktdec_of_decoded (h : frameLengthError Config.hardware s = none)
    (hd : hdrDec Config.hardware s.frame = .ok d) :
    (readSpan s .pktdec .fb).2 = min s.frame.length (frameLen d.consumed d.header.fdl.toNat) := by
  have hflen : s.rng.flen.toNat ≤ 65553 := by
    by_contra hgt
    rw [frameLengthError, if_pos (show Config.hardware.fbSize < s.frameLength from Nat.lt_of_not_le hgt)] at h
    cases h
  have hgood : s.headerGood := (decodeError_frame hflen).1 (hdrDec_ok_iff.1 hd).1
  have hspan : 11 ≤ s.rng.flen.toNat := by
    obtain ⟨hlen, hle, -⟩ := hdrDec_consumed hardware_legal hd
    rw [frame_length] at hle
    omega
  have hfdl : (halfOfSeq s.frame 5).toNat = s.fbHalf 5 := frame_half s (by omega)
  rw [hdrDec_frame hgood] at hd
  cases hd
  have hneed : s.frameNeed = frameLen (s.fbNat 3) (headerOfBytes s.frame).fdl.toNat := by
    rw [State.frameNeed, State.payloadEnd, frameLen, ← hfdl]
    rfl
  rw [frame_length, ← State.regNat_flen, ← hneed]
  exact if_pos hgood

theorem bodyRegs_pktdec (o : Option Err) : bodyRegs .pktdec o = writtenRegs .pktdec := by cases o <;> rfl

theorem bodySpan_pktdec (o : Option Err) (t : State) : bodySpan .pktdec o t = writtenSpan t .pktdec :=
  funext fun _ => if_pos (.inr rfl)

theorem pktdec_oneUpdate (h : AgreeOnReads .pktdec s₁ s₂) : OneUpdate .pktdec s₁ s₂ := by
  have hflen : s₁.frameLength = s₂.frameLength :=
    congrArg BitVec.toNat (eq_of_setWidth_eq (by decide) (h.reg .flen (by simp [readRegs])))
  have hfle := frameLengthError_eq hflen
  have hbytes : ∀ a, a < (readSpan s₁ .pktdec .fb).2 → s₁.byteAt .fb a = s₂.byteAt .fb a :=
    fun a ha => h.byte .fb a (Nat.zero_le a) ha
  obtain ⟨hdec, hflags⟩ := hdrDec_frame_congr hflen (headerSpan_le_readSpan s₁) hbytes
  cases hf : frameLengthError Config.hardware s₁ with
  | some e => exact oneUpdate_restart (.inr rfl) (pktdecCommand_badRange hf) (pktdecCommand_badRange (hfle ▸ hf))
  | none =>
    cases hd : hdrDec Config.hardware s₁.frame with
    | error e =>
      exact oneUpdate_restart (.inr rfl) (pktdecCommand_error hf hd) (pktdecCommand_error (hfle ▸ hf) (hdec ▸ hd))
    | ok d =>
      have hpayload : decodePayload Config.hardware s₁.frame d.consumed d.header.fdl.toNat =
          decodePayload Config.hardware s₂.frame d.consumed d.header.fdl.toNat :=
        decodePayload_congr (by rw [frame_length, frame_length]; exact hflen)
          (readSpan_pktdec_of_decoded hf hd).ge (frame_take_eq hflen hbytes)
      have hrun := pktdecCommand_decoded (hfle ▸ hf) (hdec ▸ hd)
      rw [← hpayload, ← hflags d hd] at hrun
      refine ⟨fun s => (payloadOutcome d.consumed d.header.fdl.toNat
        (decodePayload Config.hardware s₁.frame d.consumed d.header.fdl.toNat)
        (writeHeader d (s₁.byteAt .fb 2) s)).1, _, pktdecCommand_decoded hf hd,
        hrun.trans (Prod.ext rfl (payloadOutcome_error _ _ _ _ _)), ?_⟩
      rw [bodyRegs_pktdec, bodySpan_pktdec]
      refine (update_payloadOutcome ?_).comp (update_writeHeader _ (by decide) (by decide))
      refine (decodePayload_stored_length _ _ _ _).trans_eq ?_
      rw [writtenSpan, State.regNat_fdl, payloadOutcome_fdl]
      rfl

end

/-! ## Every command -/

section
variable {i : Instr} {s₁ s₂ : State}

theorem commandBody_oneUpdate (h : AgreeOnReads i s₁ s₂) : OneUpdate i s₁ s₂ := by
  cases i with
  | nop | clr => exact oneUpdate_ok (f := id) rfl rfl update_id
  | crc8 => exact crc8_oneUpdate h
  | crc16 => exact crc16_oneUpdate h
  | bfpack => exact bfpack_oneUpdate h
  | bfunpack => exact bfunpack_oneUpdate h
  | flgpack => exact flgpack_oneUpdate h
  | flgunpack => exact flgunpack_oneUpdate h
  | hdrenc => exact hdrenc_oneUpdate h
  | hdrdec => exact hdrdec_oneUpdate h
  | pktenc => exact pktenc_oneUpdate h
  | pktdec => exact pktdec_oneUpdate h

theorem writtenSpan_complete (i : Instr) (t : State) (o : Option Err) :
    writtenSpan (t.complete o) i = writtenSpan t i := by
  funext buf
  cases o <;> rfl

theorem bodySpan_complete (i : Instr) (t : State) (o : Option Err) :
    bodySpan i o (t.complete o) = bodySpan i o t := by
  funext buf
  rw [bodySpan, bodySpan, writtenSpan_complete]

/-- The completion writes the same report whatever the body left, CMD apart, which holds the command word already. -/
theorem complete_report {t₁ t₂ : State} (o : Option Err) (hcmd : t₁.reg .cmd = t₂.reg .cmd) :
    ∀ r ∈ reportRegs, (t₁.complete o).reg r = (t₂.complete o).reg r := by
  intro r hr
  simp only [reportRegs, List.mem_cons, List.not_mem_nil, or_false] at hr
  rcases hr with rfl | rfl | rfl | rfl | rfl
  · exact (update_complete o (List.Subset.refl reportRegs) (hi := fun _ => 0)).reg_eq hcmd
  all_goals cases o <;> rfl

/-- The whole command on two states that agree on what it reads: one update of both, within its row of the table and
the report; the same report; and an error code only when the body raised an error. -/
theorem exec_oneUpdate (h : AgreeOnReads i s₁ s₂) :
    ∃ F o, exec i s₁ = .next (F s₁) ∧ exec i s₂ = .next (F s₂) ∧
      Update F (bodyRegs i o ++ reportRegs) (bodySpan i o (F s₁)) ∧
      (∀ r ∈ reportRegs, (F s₁).reg r = (F s₂).reg r) ∧ (o = none → (F s₁).reg .errcode = 0) := by
  by_cases hi : i = .clr
  · subst hi
    exact ⟨State.clearRegisters, none, exec_clr s₁, exec_clr s₂, update_clearRegisters,
      fun r _ => by cases r <;> rfl, fun _ => rfl⟩
  · obtain ⟨f, o, h₁, h₂, hf⟩ := commandBody_oneUpdate (h.startCommand (encode i))
    refine ⟨fun s => (f (s.startCommand (encode i))).complete o, o, ?_, ?_, ?_, ?_, ?_⟩
    · rw [exec_eq_runCommand hi, runCommand, h₁]
    · rw [exec_eq_runCommand hi, runCommand, h₂]
    · have hreport : reportRegs ⊆ bodyRegs i o ++ reportRegs := List.subset_append_right _ _
      rw [bodySpan_complete]
      exact (update_complete o hreport).comp <|
        (hf.mono (List.subset_append_left _ _) fun _ => le_rfl).comp (update_startCommand _ hreport)
    · exact complete_report o (hf.reg_eq rfl)
    · rintro rfl
      rfl

end

/-! ## The obligations -/

/-- Settles O51: an update leaves every register and byte equal in both states, or as it was in both. -/
theorem resultsDependOnlyOnWhatIsRead : Obligations.ResultsDependOnlyOnWhatIsRead := by
  intro i s₁ s₂ t₁ t₂ hregs hbytes h₁ h₂
  obtain ⟨F, o, hF₁, hF₂, hF, hreport, -⟩ := exec_oneUpdate ⟨hregs, hbytes⟩
  rw [hF₁] at h₁
  rw [hF₂] at h₂
  cases h₁
  cases h₂
  exact ⟨hreport, hF.reg_agrees s₁ s₂, hF.byte_agrees s₁ s₂⟩

theorem bodyRegs_subset (i : Instr) (o : Option Err) : bodyRegs i o ⊆ writtenRegs i := by
  cases o with
  | none => exact List.Subset.refl _
  | some e =>
    rw [bodyRegs]
    split
    · exact List.Subset.refl _
    · split
      · next hi => subst hi; decide
      · exact List.nil_subset _

theorem bodySpan_le (i : Instr) (o : Option Err) (t : State) (buf : Buf) :
    bodySpan i o t buf ≤ writtenSpan t i buf := by
  rw [bodySpan]
  split
  · exact le_rfl
  · exact Nat.zero_le _

theorem sameOutside_mono {buf : Buf} {lo hi top : Nat} {s t : State} (h : sameOutside buf lo hi s t) (hle : hi ≤ top) :
    sameOutside buf lo top s t := fun a ha => h a fun ⟨hlo, hlt⟩ => ha ⟨hlo, hlt.trans_le hle⟩

theorem sameBuffer_of_sameOutside {buf : Buf} {s t : State} {hi : Nat} (h : sameOutside buf 0 hi s t) (h0 : hi = 0) :
    sameBuffer buf s t := fun a => h a fun ⟨_, hlt⟩ => by omega

theorem writtenSpan_pb {i : Instr} (hi : i ≠ .pktdec) (t : State) : writtenSpan t i .pb = 0 := by
  cases i <;> first | rfl | exact absurd rfl hi

theorem writtenSpan_fb {i : Instr} (henc : i ≠ .hdrenc) (hpkt : i ≠ .pktenc) (t : State) : writtenSpan t i .fb = 0 := by
  cases i <;> first | rfl | exact absurd rfl henc | exact absurd rfl hpkt

/-- Settles O50: what the update of the command does not write it keeps, and a body that fails writes next to
nothing. -/
theorem commandsWriteOnlyTheirTable : Obligations.CommandsWriteOnlyTheirTable := by
  intro i s t h
  obtain ⟨F, o, hF, -, hupdate, -, hok⟩ := exec_oneUpdate (agreeOnReads_refl i s)
  rw [hF] at h
  cases h
  have hout : ∀ buf, sameOutside buf 0 (writtenSpan (F s) i buf) s (F s) := fun buf =>
    sameOutside_mono (hupdate.sameOutside s buf) (bodySpan_le i o (F s) buf)
  have hregs : bodyRegs i o ++ reportRegs ⊆ writtenRegs i ++ reportRegs :=
    List.append_subset.2 ⟨List.Subset.trans (bodyRegs_subset i o) (List.subset_append_left _ _),
      List.subset_append_right _ _⟩
  refine ⟨sameRegsExcept_mono (hupdate.sameRegsExcept s) hregs, hupdate.host s,
    fun hi => sameBuffer_of_sameOutside (hout .pb) (writtenSpan_pb hi _), ?_,
    fun henc hpkt => sameBuffer_of_sameOutside (hout .fb) (writtenSpan_fb henc hpkt _), ?_, ?_, fun herr hi => ?_⟩
  · rintro rfl; exact hout .pb
  · rintro rfl; exact hout .fb
  · rintro rfl; exact hout .fb
  · obtain ⟨e, rfl⟩ := Option.ne_none_iff_exists'.1 fun ho => herr (hok ho)
    have hnone : ∀ buf, bodySpan i (some e) (F s) buf = 0 := fun buf => if_neg (by simpa using hi)
    have hfail := hupdate.sameRegsExcept s
    rw [bodyRegs, if_neg hi] at hfail
    exact ⟨hfail, sameBuffer_of_sameOutside (hupdate.sameOutside s .pb) (hnone .pb),
      sameBuffer_of_sameOutside (hupdate.sameOutside s .fb) (hnone .fb)⟩

end Sys2Proof.Machine
end

section
/-! PROOFS. Every command is idempotent (20_memory.md R45): the body of a command, run again on what it left, finds its
operands and its sources as they were, and what it writes already written. -/

namespace Sys2Proof.Machine

/-! ## Writing again what is written -/

theorem Memory.writeBytes_again {m : Memory} (h : m.wf) (a : Nat) (bs : List Byte) :
    (m.writeBytes a bs).writeBytes a bs = m.writeBytes a bs := by
  have hwf := Memory.wf_writeBytes h a bs
  refine Memory.eq_of_read? (Memory.wf_writeBytes hwf a bs) hwf fun x => ?_
  rw [Memory.read?_writeBytes, Memory.read?_writeBytes m]
  split <;> rfl

theorem store_eq_self {s : State} {buf : Buf} {a : Nat} {bs : List Byte}
    (h : (s.memory buf).writeBytes a bs = s.memory buf) : s.store buf a bs = s := by
  cases buf
  case pb => exact congrArg (fun m => { s with pb := m }) h
  case fb => exact congrArg (fun m => { s with fb := m }) h

theorem setFdl_eq_self {s : State} {n : Nat} (h : s.hdr.fdl = BitVec.ofNat 16 n) : s.setFdl n = s := by
  rw [State.setFdl, ← h]

theorem setFlen_eq_self {s : State} {n : Nat} (h : s.rng.flen = BitVec.ofNat 17 n) : s.setFlen n = s := by
  rw [State.setFlen, ← h]

theorem setSfrcs_eq_self {s : State} {v : Half} (h : s.hdr.sfrcs = v) : s.setSfrcs v = s := by
  rw [State.setSfrcs, ← h]

theorem setFlags_eq_self {s : State} {v : Byte} (h : s.hdr.flags = v) : s.setFlags v = s := by
  rw [State.setFlags, ← h]

theorem setHcs_eq_self {s : State} {v : Byte} (h : s.hdr.hcs = v) : s.setHcs v = s := by
  rw [State.setHcs, ← h]

/-! ## What reads alike -/

/-- A byte of one buffer depends on nothing but the memory of that buffer and the epoch. -/
theorem byteAt_eq_of_memory {s t : State} {buf : Buf} (hm : t.memory buf = s.memory buf) (he : t.epoch = s.epoch)
    (a : Nat) : t.byteAt buf a = s.byteAt buf a := by
  rw [State.byteAt, State.byteAt, hm, he]

theorem slice_eq_of_memory {s t : State} {buf : Buf} (hm : t.memory buf = s.memory buf) (he : t.epoch = s.epoch)
    (a n : Nat) : t.slice buf a n = s.slice buf a n :=
  State.slice_congr fun _ _ => byteAt_eq_of_memory hm he _

theorem crcRange_congr {s t : State} (hrs : t.rng.rs = s.rng.rs) (hrl : t.rng.rl = s.rng.rl) (hfb : t.fb = s.fb)
    (he : t.epoch = s.epoch) : t.crcRange = s.crcRange := by
  rw [State.crcRange, State.crcRange, State.rangeStart, State.rangeLength, hrs, hrl]
  exact slice_eq_of_memory (buf := .fb) hfb he _ _

theorem payload_congr {s t : State} (hplen : t.rng.plen = s.rng.plen) (hpb : t.pb = s.pb) (he : t.epoch = s.epoch) :
    t.payload = s.payload := by
  rw [State.payload, State.payload, State.payloadLength, hplen]
  exact slice_eq_of_memory (buf := .pb) hpb he _ _

/-- The states hold the same frame: what a decoder reads. -/
structure SameFrame (s t : State) : Prop where
  flen : t.rng.flen = s.rng.flen
  fb : t.fb = s.fb
  epoch : t.epoch = s.epoch

section
variable {s t : State}

theorem SameFrame.byteAt (h : SameFrame s t) (a : Nat) : t.byteAt .fb a = s.byteAt .fb a :=
  byteAt_eq_of_memory (buf := .fb) h.fb h.epoch a

theorem SameFrame.frame (h : SameFrame s t) : t.frame = s.frame := by
  rw [State.frame, State.frame, State.frameLength, h.flen]
  exact slice_eq_of_memory (buf := .fb) h.fb h.epoch _ _

theorem SameFrame.frameLengthError (h : SameFrame s t) :
    frameLengthError Config.hardware t = frameLengthError Config.hardware s :=
  frameLengthError_eq (congrArg BitVec.toNat h.flen)

end

/-! ## The body of a command on what it left -/

/-- The state with CMD, STATUS and the error report of `c`: all that the completion of a command and the start of the
next change. -/
def State.withReport (s : State) (c : ControlRegs) : State :=
  { s with ctl := { c with phase := s.ctl.phase, cur := s.ctl.cur } }

@[simp] theorem State.withReport_hdr (s : State) (c : ControlRegs) : (s.withReport c).hdr = s.hdr := rfl
@[simp] theorem State.withReport_rng (s : State) (c : ControlRegs) : (s.withReport c).rng = s.rng := rfl
@[simp] theorem State.withReport_pb (s : State) (c : ControlRegs) : (s.withReport c).pb = s.pb := rfl
@[simp] theorem State.withReport_epoch (s : State) (c : ControlRegs) : (s.withReport c).epoch = s.epoch := rfl

theorem startCommand_complete (s : State) (o : Option Err) (w : Word) :
    (s.complete o).startCommand w = s.withReport ((s.complete o).startCommand w).ctl := by
  cases o <;> rfl

/-- A completion writes the report it wrote before, and CMD holds the command word already. -/
theorem complete_startCommand_complete {s : State} {w : Word} (h : s.ctl.cmd = w) (o : Option Err) :
    ((s.complete o).startCommand w).complete o = s.complete o := by
  subst h
  cases o <;> rfl

/-- Run again on what it left of `s`, under any report, the body changes nothing and ends as it did. -/
def RunsAgain (body : State → State × Option Err) (s : State) : Prop :=
  ∀ c, body ((body s).1.withReport c) = ((body s).1.withReport c, (body s).2)

theorem runsAgain_of_eq {body : State → State × Option Err} {s : State} {r : State × Option Err} (hr : body s = r)
    (h : ∀ c, body (r.1.withReport c) = (r.1.withReport c, r.2)) : RunsAgain body s := by
  rw [RunsAgain, hr]
  exact h

section
variable {s : State}

theorem crc8Command_again (s : State) : RunsAgain (crc8Command Config.hardware) s := by
  cases he : rangeError Config.hardware s with
  | some e => exact runsAgain_of_eq (crc8Command_error he) fun _ => crc8Command_error he
  | none =>
    refine runsAgain_of_eq (crc8Command_ok he) fun c => ?_
    have hrun := crc8Command_ok (s := (s.setCrc8r (crc8 Config.hardware s.crcRange)).withReport c) he
    have hrange : ((s.setCrc8r (crc8 Config.hardware s.crcRange)).withReport c).crcRange = s.crcRange :=
      crcRange_congr rfl rfl rfl rfl
    rwa [hrange] at hrun

theorem crc16Command_again (s : State) : RunsAgain (crc16Command Config.hardware) s := by
  cases he : rangeError Config.hardware s with
  | some e => exact runsAgain_of_eq (crc16Command_error he) fun _ => crc16Command_error he
  | none =>
    refine runsAgain_of_eq (crc16Command_ok he) fun c => ?_
    have hrun := crc16Command_ok (s := (s.setCrc16r (crc16 Config.hardware s.crcRange)).withReport c) he
    have hrange : ((s.setCrc16r (crc16 Config.hardware s.crcRange)).withReport c).crcRange = s.crcRange :=
      crcRange_congr rfl rfl rfl rfl
    rwa [hrange] at hrun

theorem bfpackCommand_again (s : State) : RunsAgain bfpackCommand s := by
  cases hc : bfCheck s.pairCount s.widths with
  | error e => exact runsAgain_of_eq (bfpackCommand_badWidths hc) fun _ => bfpackCommand_badWidths hc
  | ok u =>
    cases hp : bfPack s.values s.widths with
    | error e => exact runsAgain_of_eq (bfpackCommand_overflow hc hp) fun _ => bfpackCommand_overflow hc hp
    | ok b => exact runsAgain_of_eq (bfpackCommand_ok hc hp) fun _ => bfpackCommand_ok hc hp

theorem bfunpackCommand_again (s : State) : RunsAgain bfunpackCommand s := by
  cases hc : bfCheck s.pairCount s.widths with
  | error e => exact runsAgain_of_eq (bfunpackCommand_error hc) fun _ => bfunpackCommand_error hc
  | ok u => exact runsAgain_of_eq (bfunpackCommand_ok hc) fun _ => bfunpackCommand_ok hc

theorem flgpackCommand_again (s : State) : RunsAgain flgpackCommand s := by
  cases hp : s.packedFlags with
  | error e => exact runsAgain_of_eq (flgpackCommand_error hp) fun _ => flgpackCommand_error hp
  | ok b => exact runsAgain_of_eq (flgpackCommand_ok hp) fun _ => flgpackCommand_ok hp

theorem flgunpackCommand_again (s : State) : RunsAgain flgunpackCommand s := fun _ => rfl

theorem writeHeaderBytes_eq_self {t : State} {b : List Byte} (hfb : t.fb.writeBytes 0 b = t.fb)
    (hflags : t.hdr.flags = byteOfSeq b 2) (hhcs : t.hdr.hcs = byteOfSeq b (b.length - 1))
    (hflen : t.rng.flen = BitVec.ofNat 17 b.length) : writeHeaderBytes b t = t := by
  rw [writeHeaderBytes, store_eq_self (buf := .fb) hfb, setFlags_eq_self hflags, setHcs_eq_self hhcs,
    setFlen_eq_self hflen]

theorem writeHeaderBytes_again (hfb : s.fb.wf) (b : List Byte) (c : ControlRegs) :
    writeHeaderBytes b ((writeHeaderBytes b s).withReport c) = (writeHeaderBytes b s).withReport c :=
  writeHeaderBytes_eq_self (Memory.writeBytes_again hfb 0 b) rfl rfl rfl

/-- HDRENC reads no register that it writes, and no byte. -/
theorem hdrencCommand_again (hfb : s.fb.wf) : RunsAgain (hdrencCommand Config.hardware) s := by
  cases hb : hdrEnc Config.hardware s.header with
  | error e => exact runsAgain_of_eq (hdrencCommand_error hb) fun _ => hdrencCommand_error hb
  | ok b =>
    refine runsAgain_of_eq (hdrencCommand_ok hb) fun c => ?_
    have hrun := hdrencCommand_ok (s := (writeHeaderBytes b s).withReport c) hb
    rwa [writeHeaderBytes_again hfb] at hrun

theorem writeFrame_eq_self {t : State} {b p : List Byte}
    (hfb : t.fb.writeBytes 0 (b ++ payloadPart Config.hardware p) = t.fb) (hfdl : t.hdr.fdl = BitVec.ofNat 16 p.length)
    (hsfrcs : t.hdr.sfrcs = checksumRegister Config.hardware p) (hflags : t.hdr.flags = byteOfSeq b 2)
    (hhcs : t.hdr.hcs = byteOfSeq b (b.length - 1))
    (hflen : t.rng.flen = BitVec.ofNat 17 (frameLen b.length p.length)) : writeFrame b p t = t := by
  rw [writeFrame, store_eq_self (buf := .fb) hfb, setFdl_eq_self hfdl, setSfrcs_eq_self hsfrcs,
    setFlags_eq_self hflags, setHcs_eq_self hhcs, setFlen_eq_self hflen]

theorem writeFrame_again (hfb : s.fb.wf) (b p : List Byte) (c : ControlRegs) :
    writeFrame b p ((writeFrame b p s).withReport c) = (writeFrame b p s).withReport c :=
  writeFrame_eq_self (Memory.writeBytes_again hfb 0 _) rfl rfl rfl rfl rfl

theorem writeFrame_operands (b p : List Byte) (c : ControlRegs) :
    ((writeFrame b p s).withReport c).header.withLength ((writeFrame b p s).withReport c).payloadLength =
      s.header.withLength s.payloadLength := by
  simp [State.header, Header.withLength, State.payloadLength, writeFrame]

theorem writeFrame_payload (b p : List Byte) (c : ControlRegs) :
    ((writeFrame b p s).withReport c).payload = s.payload :=
  payload_congr (by simp [writeFrame]) (by simp [writeFrame]) (by simp [writeFrame])

/-- PKTENC reads no register that it writes, for FDL is none of its operands, and no byte of FB. -/
theorem pktencCommand_again (hfb : s.fb.wf) : RunsAgain (pktencCommand Config.hardware) s := by
  cases hb : hdrEnc Config.hardware (s.header.withLength s.payloadLength) with
  | error e => exact runsAgain_of_eq (pktencCommand_hardware_error hb) fun _ => pktencCommand_hardware_error hb
  | ok b =>
    obtain ⟨hrun, -⟩ := pktencCommand_hardware_ok hb
    refine runsAgain_of_eq hrun fun c => ?_
    obtain ⟨hrun', -⟩ := pktencCommand_hardware_ok
      ((congrArg (hdrEnc Config.hardware) (writeFrame_operands b s.payload c)).trans hb)
    rwa [writeFrame_payload, writeFrame_again hfb] at hrun'

/-- HDRDEC writes neither FLEN nor FB. -/
theorem hdrdecCommand_again (s : State) : RunsAgain (hdrdecCommand Config.hardware) s := by
  cases hf : frameLengthError Config.hardware s with
  | some e => exact runsAgain_of_eq (hdrdecCommand_badRange hf) fun _ => hdrdecCommand_badRange hf
  | none =>
    cases hd : hdrDec Config.hardware s.frame with
    | error e =>
      refine runsAgain_of_eq (hdrdecCommand_error hf hd) fun c => ?_
      have hsame : SameFrame s ((s.setPhase .start 0).withReport c) := ⟨rfl, rfl, rfl⟩
      exact hdrdecCommand_error hf (hsame.frame ▸ hd)
    | ok d =>
      refine runsAgain_of_eq (hdrdecCommand_ok hf hd) fun c => ?_
      have hsame : SameFrame s ((writeHeader d (s.byteAt .fb 2) s).withReport c) := ⟨rfl, rfl, rfl⟩
      have hrun := hdrdecCommand_ok (hsame.frameLengthError.trans hf) (hsame.frame ▸ hd)
      rwa [hsame.byteAt] at hrun

theorem commitPayload_of_stored {t : State} {p : List Byte} (hpb : t.pb.writeBytes 0 p = t.pb) (rx : Half) :
    commitPayload t p rx = (t.setPlen p.length).setSfrcs rx := by
  rw [commitPayload, store_eq_self (buf := .pb) hpb]

theorem payloadOutcome_again (hpb : s.pb.wf) (d : HeaderDecoded) (flags : Byte) (hl fdl : Nat) (r : PayloadResult) :
    RunsAgain (fun t => payloadOutcome hl fdl r (writeHeader d flags t)) s := by
  intro c
  cases r with
  | short e => rfl
  | mismatch p rx _ | valid p rx _ =>
    simp only [payloadOutcome]
    rw [commitPayload_of_stored (Memory.writeBytes_again hpb 0 p)]
    rfl

/-- However PKTDEC ends, it writes neither FLEN nor FB. -/
theorem payloadOutcome_sameFrame (d : HeaderDecoded) (flags : Byte) (hl fdl : Nat) (r : PayloadResult)
    (c : ControlRegs) : SameFrame s ((payloadOutcome hl fdl r (writeHeader d flags s)).1.withReport c) := by
  cases r <;> exact ⟨rfl, rfl, rfl⟩

theorem pktdecCommand_again (hpb : s.pb.wf) : RunsAgain (pktdecCommand Config.hardware) s := by
  cases hf : frameLengthError Config.hardware s with
  | some e => exact runsAgain_of_eq (pktdecCommand_badRange hf) fun _ => pktdecCommand_badRange hf
  | none =>
    cases hd : hdrDec Config.hardware s.frame with
    | error e =>
      refine runsAgain_of_eq (pktdecCommand_error hf hd) fun c => ?_
      have hsame : SameFrame s ((s.setPhase .start 0).withReport c) := ⟨rfl, rfl, rfl⟩
      exact pktdecCommand_error hf (hsame.frame ▸ hd)
    | ok d =>
      refine runsAgain_of_eq (pktdecCommand_decoded hf hd) fun c => ?_
      have hsame := payloadOutcome_sameFrame (s := s) d (s.byteAt .fb 2) d.consumed d.header.fdl.toNat
        (decodePayload Config.hardware s.frame d.consumed d.header.fdl.toNat) c
      rw [pktdecCommand_decoded (hsame.frameLengthError.trans hf) (hsame.frame ▸ hd), hsame.frame, hsame.byteAt]
      exact payloadOutcome_again hpb _ _ _ _ _ c

end

theorem commandBody_again (i : Instr) {s : State} (hpb : s.pb.wf) (hfb : s.fb.wf) : RunsAgain (commandBody i) s := by
  cases i with
  | nop | clr => exact fun _ => rfl
  | crc8 => exact crc8Command_again s
  | crc16 => exact crc16Command_again s
  | bfpack => exact bfpackCommand_again s
  | bfunpack => exact bfunpackCommand_again s
  | flgpack => exact flgpackCommand_again s
  | flgunpack => exact flgunpackCommand_again s
  | hdrenc => exact hdrencCommand_again hfb
  | hdrdec => exact hdrdecCommand_again s
  | pktenc => exact pktencCommand_again hfb
  | pktdec => exact pktdecCommand_again hpb

/-- No body writes CMD: only the start of a command does, and CLR. -/
theorem commandBody_cmd {i : Instr} (hi : i ≠ .clr) (s : State) : (commandBody i s).1.ctl.cmd = s.ctl.cmd := by
  obtain ⟨f, o, hrun, -, hf⟩ := commandBody_oneUpdate (agreeOnReads_refl i s)
  have hcmd : .cmd ∉ writtenRegs i := by
    cases i with
    | clr => exact absurd rfl hi
    | _ => decide
  rw [hrun]
  exact hf.sameRegsExcept s .cmd fun h => hcmd (bodyRegs_subset i o h)

/-- Settles O52: the second time the body changes nothing, and the completion writes the same report. -/
theorem everyCommandIsIdempotent : Obligations.EveryCommandIsIdempotent := by
  intro i s t hpb hfb h
  by_cases hi : i = .clr
  · subst hi
    rw [exec_clr] at h
    cases h
    rfl
  · rw [exec_eq_runCommand hi, runCommand] at h
    cases h
    have hagain := commandBody_again i (s := s.startCommand (encode i)) hpb hfb
    have hcmd : (commandBody i (s.startCommand (encode i))).1.ctl.cmd = encode i := commandBody_cmd hi _
    rw [exec_eq_runCommand hi, runCommand, startCommand_complete, hagain, ← startCommand_complete]
    exact congrArg _ (complete_startCommand_complete hcmd _)

end Sys2Proof.Machine
end

section
/-! PROOFS. Host accesses to the buffer windows, to reserved addresses, and outside the interface (20_memory.md R35,
R42): what each reaches, and the step it makes. -/

namespace Sys2Proof.Machine

/-! ## The access as a step -/

section
variable {s : State} {size : AccessSize} {addr : BusAddr} {target : Target} {w : Word} {rest : List HostAccess}

@[simp] theorem busRead_withPending (s : State) (l : List HostAccess) (target : Target) :
    (s.withPending l).busRead target = s.busRead target := by
  cases target with
  | reg r => exact State.reg_withPending s l r
  | byte buf a => exact congrArg (BitVec.setWidth 32) (State.byteAt_withPending s l buf a)
  | reserved => rfl

theorem step_read (hp : s.pending = .read size addr :: rest) (h : busTarget size addr.toNat = some target) :
    step s = .next ((s.withPending rest).answer (some (s.busRead target))) := by
  rw [step_cons hp, hostAccess_read h, busRead_withPending]

theorem step_write (hp : s.pending = .write size addr w :: rest) (h : busTarget size addr.toNat = some target)
    (hcmd : target ≠ .reg .cmd) : step s = .next (((s.withPending rest).answer none).busWrite w target) := by
  rw [step_cons hp, hostAccess_write h hcmd]

theorem step_read_refused (hp : s.pending = .read size addr :: rest) (h : busTarget size addr.toNat = none) :
    step s = .refused (.accessOutsideInterface (.read size addr)) := by
  simp only [step_cons hp, hostAccess, h]

theorem step_write_refused (hp : s.pending = .write size addr w :: rest) (h : busTarget size addr.toNat = none) :
    step s = .refused (.accessOutsideInterface (.write size addr w)) := by
  simp only [step_cons hp, hostAccess, h]

/-- An address inside the aperture stands on the bus as it is. -/
theorem busTarget_ofNat {n : Nat} (hn : n < 0x40000) (h : busTarget size n = some target) :
    busTarget size (BitVec.ofNat 18 n).toNat = some target := by
  rwa [BitVec.toNat_ofNat, Nat.mod_eq_of_lt hn]

/-! ## Buffer bytes -/

/-- A byte write at a buffer address stores the low 8 bits there, and every other byte and every register keeps its
value. -/
theorem step_writeByte {buf other : Buf} {a : Nat} (hother : other ≠ buf)
    (hp : s.pending = .write .byte addr w :: rest) (h : busTarget .byte addr.toNat = some (.byte buf a)) :
    ∃ t, step s = .next t ∧ (t.byteAt buf a).toNat = w.toNat % 256 ∧ sameOutside buf a (a + 1) s t ∧
      sameBuffer other s t ∧ sameRegsExcept s t [] ∧ t.pending = rest ∧ t.epoch = s.epoch := by
  refine ⟨_, step_write hp h (by simp), ?_, fun x hx => ?_, fun x => ?_, fun r _ => ?_, ?_, ?_⟩
  · rw [State.busWrite, State.byteAt_store, if_pos (by simp), Nat.sub_self, List.getD_cons_zero, BitVec.toNat_setWidth]
  · rw [State.busWrite, State.byteAt_store, if_neg (by simpa using hx), State.byteAt_answer, State.byteAt_withPending]
  · rw [State.busWrite, State.byteAt_store_ne _ hother, State.byteAt_answer, State.byteAt_withPending]
  · rw [State.busWrite, State.reg_store, State.reg_answer, State.reg_withPending]
  · rw [State.busWrite, State.store_pending, State.answer_pending, State.withPending_pending]
  · rw [State.busWrite, State.store_epoch, State.answer_epoch, State.withPending_epoch]

/-! ## Reserved addresses -/

theorem isReserved_of_reservedAddress {a : Nat} (h : reservedAddress a) : isReserved a = true := by
  rw [isReserved_iff]
  omega

/-- An access that covers reserved bytes alone reaches nothing. -/
theorem busTarget_reservedBytes {a : Nat} (h : ∀ i, i < accessBytes size → reservedAddress (a + i))
    (halign : size = .word → a % 4 = 0) : busTarget size a = some .reserved := by
  have hres : ∀ i, i < accessBytes size → isReserved (a + i) = true := fun i hi =>
    isReserved_of_reservedAddress (h i hi)
  cases size with
  | byte => exact busTarget_reserved (hres 0 (by decide))
  | half => exact busTarget_reserved_half (hres 0 (by decide)) (hres 1 (by decide))
  | word =>
    exact busTarget_reserved_word (halign rfl) (hres 0 (by decide)) (hres 1 (by decide)) (hres 2 (by decide))
      (hres 3 (by decide))

/-! ## Outside the interface -/

theorem busTarget_eq_none {a : Nat} (h : ¬accessWellFormed size a = true) : busTarget size a = none := by
  rwa [← busTarget_isSome, Bool.not_eq_true, Option.isSome_eq_false_iff, Option.isNone_iff_eq_none] at h

/-- A word is aligned, and it starts in the register window or in a reserved byte. -/
theorem accessWellFormed_word {a : Nat} (h : accessWellFormed .word a = true) :
    a % 4 = 0 ∧ (a < 196 ∨ isReserved a = true) := by
  simp only [accessWellFormed, Bool.and_eq_true, Bool.or_eq_true, decide_eq_true_iff, inRegWindow_iff] at h
  obtain ⟨halign, hreg | ⟨⟨⟨hres, -⟩, -⟩, -⟩⟩ := h
  · exact ⟨halign, .inl hreg⟩
  · exact ⟨halign, .inr hres⟩

theorem accessWellFormed_half {a : Nat} (h : accessWellFormed .half a = true) : isReserved a = true := by
  simp only [accessWellFormed, Bool.and_eq_true] at h
  obtain ⟨hres, -⟩ := h
  exact hres

/-- Only words reach the register window. -/
theorem accessWellFormed_narrow {a : Nat} (hsize : size ≠ .word) (h : accessWellFormed size a = true) :
    ¬a < 196 := by
  cases size with
  | byte =>
    simp only [accessWellFormed, Bool.or_eq_true, inPbWindow_iff, inFbWindow_iff, isReserved_iff] at h
    omega
  | half =>
    have hres := (isReserved_iff a).1 (accessWellFormed_half h)
    omega
  | word => exact absurd rfl hsize

/-- Only bytes reach the buffer windows. -/
theorem accessWellFormed_wide {a : Nat} (hsize : size ≠ .byte) (h : accessWellFormed size a = true) :
    a < 196 ∨ isReserved a = true := by
  cases size with
  | byte => exact absurd rfl hsize
  | half => exact .inr (accessWellFormed_half h)
  | word => exact (accessWellFormed_word h).2

/-- The three kinds of access that 20_memory.md R42 puts outside the interface. -/
theorem busTarget_outside {a : Nat}
    (h : (size = .word ∧ a % 4 ≠ 0) ∨ (size ≠ .word ∧ a < 0x000C4) ∨
      (size ≠ .byte ∧ ((0x10000 ≤ a ∧ a ≤ 0x1FFFE) ∨ (0x20000 ≤ a ∧ a ≤ 0x30010)))) :
    busTarget size a = none := by
  refine busTarget_eq_none fun hwf => ?_
  rcases h with ⟨rfl, hunaligned⟩ | ⟨hsize, hreg⟩ | ⟨hsize, hbuffer⟩
  · exact hunaligned (accessWellFormed_word hwf).1
  · exact accessWellFormed_narrow hsize hwf hreg
  · have hreach := accessWellFormed_wide hsize hwf
    rw [isReserved_iff] at hreach
    omega

end

/-! ## The obligations -/

/-- Settles O10: the store of one byte, in PB and in FB. -/
theorem hostWritesABufferByte : Obligations.HostWritesABufferByte := by
  intro s a w rest
  constructor
  · intro ha hp
    exact step_writeByte (by decide) hp (busTarget_ofNat (by omega) (busTarget_pb ha))
  · intro ha hp
    exact step_writeByte (by decide) hp (busTarget_ofNat (by omega) (busTarget_fb ha))

/-- Settles O11: the read's target is the byte, and a read only places the answer. -/
theorem hostReadsABufferByte : Obligations.HostReadsABufferByte := by
  intro s a rest
  constructor
  · intro ha hp
    exact step_read hp (busTarget_ofNat (by omega) (busTarget_pb ha))
  · intro ha hp
    exact step_read hp (busTarget_ofNat (by omega) (busTarget_fb ha))

/-- Settles O12: the access reaches nothing, so a read answers 0 and a write changes nothing. -/
theorem reservedAddressesReadZero : Obligations.ReservedAddressesReadZero := by
  intro s size a w rest h halign
  have htarget := busTarget_reservedBytes h halign
  exact ⟨fun hp => step_read hp htarget, fun hp => step_write hp htarget (by decide)⟩

/-- Settles O13: the access has no target. -/
theorem accessOutsideTheInterfaceIsRefused : Obligations.AccessOutsideTheInterfaceIsRefused := by
  intro s size a w rest h
  have htarget := busTarget_outside h
  exact ⟨fun hp => step_read_refused hp htarget, fun hp => step_write_refused hp htarget⟩

end Sys2Proof.Machine
end

section
/-! PROOFS. Command words (30_encoding.md R52 to R55): the decoder reads a word as a command exactly when it is the word
of that command; and the step that a write of a word to CMD makes, be the word a command's or not. -/

namespace Sys2Proof.Machine

/-! ## The decoder and the encoder -/

theorem decodeEncode_statement (i : Instr) : Laws.DecodeEncode.Statement i := by
  cases i with
  | nop => exact Laws.DecodeEncode.nop
  | crc8 => exact Laws.DecodeEncode.crc8
  | crc16 => exact Laws.DecodeEncode.crc16
  | bfpack => exact Laws.DecodeEncode.bfpack
  | bfunpack => exact Laws.DecodeEncode.bfunpack
  | flgpack => exact Laws.DecodeEncode.flgpack
  | flgunpack => exact Laws.DecodeEncode.flgunpack
  | hdrenc => exact Laws.DecodeEncode.hdrenc
  | hdrdec => exact Laws.DecodeEncode.hdrdec
  | pktenc => exact Laws.DecodeEncode.pktenc
  | pktdec => exact Laws.DecodeEncode.pktdec
  | clr => exact Laws.DecodeEncode.clr

theorem decode_encode (i : Instr) : decode (encode i) = .ok i := by
  obtain ⟨-, hdecode, -⟩ := decodeEncode_statement i
  exact hdecode

/-- Two numbers with one meaning in the opcode map are equal. -/
theorem eq_toNat_encode_of_decodeOpcode {n : Nat} {i : Instr} (h : decodeOpcode n = some i) : n = (encode i).toNat := by
  unfold decodeOpcode at h
  split at h <;> cases h <;> rfl

theorem toNat_eq_opcodeOf {w : Word} (h : reservedOf w = 0) : w.toNat = opcodeOf w := by
  unfold reservedOf at h
  unfold opcodeOf
  omega

/-- What a successful decode means: no reserved bit is set and the opcode is in the map. -/
theorem decode_ok_inv {w : Word} {i : Instr} (h : decode w = .ok i) :
    reservedOf w = 0 ∧ decodeOpcode (opcodeOf w) = some i := by
  unfold decode at h
  split at h
  · cases h
  · next hres =>
    split at h
    · next j hop =>
      cases h
      exact ⟨not_not.1 hres, hop⟩
    · cases h

theorem decode_eq_ok_iff {w : Word} {i : Instr} : decode w = .ok i ↔ w = encode i := by
  constructor
  · intro h
    obtain ⟨hres, hop⟩ := decode_ok_inv h
    exact BitVec.eq_of_toNat_eq ((toNat_eq_opcodeOf hres).trans (eq_toNat_encode_of_decodeOpcode hop))
  · rintro rfl
    exact decode_encode i

/-! ## The opcode map as a list -/

/-- The twelve commands, in the order of 30_encoding.md R53. -/
def commands : List Instr :=
  [.nop, .crc8, .crc16, .bfpack, .bfunpack, .flgpack, .flgunpack, .hdrenc, .hdrdec, .pktenc, .pktdec, .clr]

theorem mem_commands (i : Instr) : i ∈ commands := by cases i <;> decide

theorem mem_opcodeMap_iff {w : Word} {i : Instr} :
    (w, i) ∈ commands.map (fun j => (encode j, j)) ↔ w = encode i := by
  constructor
  · intro h
    obtain ⟨j, -, hj⟩ := List.mem_map.1 h
    obtain ⟨rfl, rfl⟩ := Prod.mk.inj hj
    rfl
  · rintro rfl
    exact List.mem_map_of_mem (mem_commands i)

theorem decode_error_of_not_mem {w : Word} (h : w ∉ commands.map encode) : ∃ e, decode w = .error e := by
  cases hdecode : decode w with
  | error e => exact ⟨e, rfl⟩
  | ok i =>
    rw [decode_eq_ok_iff.1 hdecode] at h
    exact absurd (List.mem_map_of_mem (mem_commands i)) h

/-! ## Words as bytes and as table rows -/

/-- The four bytes of a word, put together again, are the word (20_memory.md R40). -/
theorem decodeBytes_bytesOfWord (w : Word) : decodeBytes (bytesOfWord w) = decode w := by
  refine congrArg decode (BitVec.eq_of_toNat_eq ?_)
  have hw := w.isLt
  simp only [wordOfBytes, BitVec.toNat_ofNat]
  omega

theorem decodeTableWord_of_decode {w : Word} {i : Instr} (h : decode w = .ok i) :
    decodeTableWord 32 w.toNat = some i := by
  have hbits : w.toNat % 2 ^ 32 = w.toNat := Nat.mod_eq_of_lt w.isLt
  simp only [decodeTableWord, hbits, w.isLt, if_true, BitVec.ofNat_toNat, BitVec.setWidth_eq,
    decodeBytes_bytesOfWord, h]

/-! ## The step of a CMD write -/

section
variable {s : State} {w : Word} {rest : List HostAccess}

theorem step_writeCmd (hp : s.pending = .write .word cmdAddr w :: rest) :
    step s = commandWrite w ((s.withPending rest).answer none) := by
  rw [step_cons hp, hostAccess_command]

theorem commandWrite_ok {i : Instr} (h : decode w = .ok i) : commandWrite w s = exec i s := by
  simp only [commandWrite, h]

theorem commandWrite_error {e : DecodeReject} (h : decode w = .error e) : commandWrite w s = illegalCommand w s := by
  simp only [commandWrite, h]

/-- An illegal command raises IllegalCommand(42, w) before it has written anything (30_encoding.md R55). -/
theorem illegalCommand_raises (w : Word) (s : State) :
    ∃ t, illegalCommand w s = .next t ∧ reportsError w 8 42 w.toNat t ∧ sameRegsExcept s t reportRegs ∧
      sameBuffer .pb s t ∧ sameBuffer .fb s t ∧ sameHost s t :=
  runCommand_raises (e := ⟨.illegalCommand, regNum .cmd, w.toNat⟩) rfl
    (show regNum .cmd < 256 by decide) w.isLt

end

/-! ## The obligations -/

/-- Settles O1: the pairs of the opcode map are the commands with their words. -/
theorem decodeReadsExactlyTheTwelveWords : Obligations.DecodeReadsExactlyTheTwelveWords :=
  fun _ _ => decode_eq_ok_iff.trans mem_opcodeMap_iff.symm

/-- Settles O5: a word outside the opcode map is rejected, and its command raises on the state from which the access
has been taken. -/
theorem illegalWordChangesOnlyTheReport : Obligations.IllegalWordChangesOnlyTheReport := by
  intro s w rest hp hw
  obtain ⟨e, hreject⟩ := decode_error_of_not_mem hw
  obtain ⟨t, hstep, hreport, hregs, hpb, hfb, hpending, hreply, hepoch⟩ :=
    illegalCommand_raises w ((s.withPending rest).answer none)
  refine ⟨t, ?_, hreport, fun r hr => ?_, fun a => ?_, fun a => ?_, hpending, hepoch, hreply⟩
  · rw [step_writeCmd hp, commandWrite_error hreject, hstep]
  · rw [hregs r hr, State.reg_answer, State.reg_withPending]
  · rw [hpb a, State.byteAt_answer, State.byteAt_withPending]
  · rw [hfb a, State.byteAt_answer, State.byteAt_withPending]

/-- Settles O2: the six words are the encoder's. -/
theorem sampleWordsDecode : Obligations.SampleWordsDecode :=
  ⟨decode_encode .nop, decode_encode .crc8, decode_encode .flgunpack, decode_encode .hdrdec, decode_encode .pktenc,
    decode_encode .clr⟩

/-- Settles O3: the bytes and the table row of a word decode as the word does. -/
theorem encodedCommandsDecodeBack : Obligations.EncodedCommandsDecodeBack := by
  intro i _
  have hdecode := decode_encode i
  exact ⟨hdecode, (decodeBytes_bytesOfWord _).trans hdecode, decodeTableWord_of_decode hdecode⟩

/-- Settles O4: the CMD write is the step's access, and its word decodes to the command. -/
theorem stepRunsTheDecodedCommand : Obligations.StepRunsTheDecodedCommand := by
  intro s w i rest hp hdecode _
  rw [step_writeCmd hp, commandWrite_ok hdecode]
  rfl

end Sys2Proof.Machine
end

section
/-! PROOFS. The Header Codec on values: decoding is a left inverse of encoding, and encoding gives the decoded header
span back (41_header_codec.md R72, R73). -/

namespace Sys2Proof.Machine

/-! ## The flag byte of an encodable header -/

/-- An encodable header stands in its flag byte (42_bitfield.md R78). -/
theorem flagByte_fields {cfg : Config} {h : Header} (he : encodeError cfg h = none) :
    flagPrf h.flagByte = h.prf ∧ flagRte h.flagByte = h.rte ∧ flagEna h.flagByte = h.ena ∧
      flagCmp h.flagByte = h.cmp ∧ flagPr h.flagByte = h.pr := by
  obtain ⟨hprf, hrte, hena, hcmp, hpr, -⟩ := encodeError_eq_none.1 he
  exact flags_of_sum hprf hrte hena hcmp hpr

/-! ## Decoding what was encoded -/

section
variable (h : Header) (f : Byte) (r : List Byte)

theorem byteOfSeq_headerBytes_prv : byteOfSeq (headerBytes h f ++ r) 0 = h.prv := rfl
theorem byteOfSeq_headerBytes_flags : byteOfSeq (headerBytes h f ++ r) 2 = f := rfl
theorem byteOfSeq_headerBytes_hl : byteOfSeq (headerBytes h f ++ r) 3 = h.hl := rfl

end

theorem visible_of_rte_eq {h : Header} (hr : h.rte = 1) : h.visible = h := if_pos hr

theorem routingBytes_of_rte_eq {h : Header} (hr : h.rte = 1) :
    routingBytes h = [lowByte h.pra, highByte h.pra, lowByte h.rca, highByte h.rca, h.ttl] := if_pos hr

theorem routingBytes_of_rte_ne {h : Header} (hr : h.rte ≠ 1) : routingBytes h = [] := if_neg hr

/-- The fields stand in the header bytes where step 8 of 41_header_codec.md R70 looks for them. -/
theorem headerOfBytes_headerBytes {cfg : Config} {h : Header} (he : encodeError cfg h = none) (r : List Byte) :
    headerOfBytes (headerBytes h h.flagByte ++ r) = h.visible := by
  obtain ⟨hprf, hrte, hena, hcmp, hpr⟩ := flagByte_fields he
  simp only [headerOfBytes, byteOfSeq_headerBytes_flags, hprf, hrte, hena, hcmp, hpr]
  by_cases hr : h.rte = 1
  · simp only [if_pos hr, visible_of_rte_eq hr]
    simp [headerBytes, routingBytes_of_rte_eq hr, halfOfSeq]
  · simp only [if_neg hr, visible_of_rte_ne hr]
    simp [headerBytes, halfOfSeq]

/-- All bytes but the last are the header bytes, and the last is their checksum (41_header_codec.md R68). -/
theorem headerBytes_length_of_encodable {cfg : Config} {h : Header} (hc : cfg.legal) (he : encodeError cfg h = none) :
    (headerBytes h h.flagByte).length + 1 = h.hl.toNat ∧ (h.hl.toNat = 11 ∨ h.hl.toNat = 16) := by
  have hlen := hdrEnc_length hc (hdrEnc_of_encodable he)
  rwa [List.length_append, List.length_singleton] at hlen

theorem byteOfSeq_append_length (l r : List Byte) (c : Byte) : byteOfSeq (l ++ c :: r) l.length = c := by
  rw [byteOfSeq_append_right le_rfl, Nat.sub_self, byteOfSeq_cons_zero]

/-- An encoded header passes steps 1 to 7 of 41_header_codec.md R70, whatever follows it. -/
theorem decodeError_encoded {cfg : Config} {h : Header} (hc : cfg.legal) (he : encodeError cfg h = none)
    (r : List Byte) :
    decodeError cfg (headerBytes h h.flagByte ++ crc8 cfg (headerBytes h h.flagByte) :: r) = none := by
  obtain ⟨hlen, hhl⟩ := headerBytes_length_of_encodable hc he
  obtain ⟨hprf, hrte, -⟩ := flagByte_fields he
  obtain ⟨-, -, -, -, -, hprv, hprf0, himp⟩ := encodeError_eq_none.1 he
  rw [decodeError_eq_none, byteOfSeq_headerBytes_prv, byteOfSeq_headerBytes_flags, byteOfSeq_headerBytes_hl,
    Nat.sub_eq_of_eq_add hlen.symm, List.take_left, byteOfSeq_append_length, hprf, hrte, List.length_append,
    List.length_cons]
  exact ⟨by omega, by omega, by omega, rfl, hprv, hprf0, himp⟩

/-- 41_header_codec.md R72: an encoded header decodes to itself, whatever follows it. -/
theorem hdrDec_of_hdrEnc {cfg : Config} {h : Header} {b : List Byte} (hc : cfg.legal) (hb : hdrEnc cfg h = .ok b)
    (t : List Byte) :
    hdrDec cfg (b ++ t) =
      .ok { header := h.visible, hcs := byteOfSeq b (b.length - 1), consumed := b.length } := by
  have he : encodeError cfg h = none := (hdrEnc_ok_iff.1 hb).1
  rw [hdrEnc_of_encodable he, Except.ok.injEq] at hb
  subst hb
  obtain ⟨hlen, -⟩ := headerBytes_length_of_encodable hc he
  rw [List.append_assoc, List.singleton_append, hdrDec_ok_iff]
  refine ⟨decodeError_encoded hc he t, ?_⟩
  rw [headerOfBytes_headerBytes he, byteOfSeq_headerBytes_hl, ← hlen, Nat.add_sub_cancel, byteOfSeq_append_length,
    List.length_append, List.length_singleton, Nat.add_sub_cancel, byteOfSeq_append_length]

/-! ## Encoding what was decoded -/

theorem take_eq_map_byteOfSeq {b : List Byte} {n : Nat} (hn : n ≤ b.length) :
    b.take n = (List.range n).map (byteOfSeq b) := by
  apply List.ext_getElem
  · simpa using hn
  · intro i hi _
    rw [List.length_take] at hi
    rw [List.getElem_take, List.getElem_map, List.getElem_range, byteOfSeq_eq_getElem]

/-- Every byte of the span before HCS is in the decoded header: it has no unused bit (41_header_codec.md R73). -/
theorem headerBytes_headerOfBytes {b : List Byte} {n : Nat} (hn : n ≤ b.length)
    (hrouted : n = 10 + 5 * (flagRte (byteOfSeq b 2)).toNat) :
    headerBytes (headerOfBytes b) (byteOfSeq b 2) = b.take n := by
  rw [take_eq_map_byteOfSeq hn]
  have hrte := flagRte_toNat (byteOfSeq b 2)
  by_cases hr : flagRte (byteOfSeq b 2) = 1
  · have hn15 : n = 15 := by rw [hrouted, hr]; rfl
    subst hn15
    rw [headerBytes, routingBytes_of_rte_eq hr]
    simp only [headerOfBytes, if_pos hr]
    simp [halfOfSeq, List.range_succ]
  · have hn10 : n = 10 := by
      rw [byte_eq_one_iff] at hr
      omega
    subst hn10
    rw [headerBytes, routingBytes_of_rte_ne hr]
    simp [headerOfBytes, halfOfSeq, List.range_succ]

/-- A decoded header passes the eight checks of 41_header_codec.md R67. -/
theorem encodeError_headerOfBytes {cfg : Config} {b : List Byte} (hd : decodeError cfg b = none) :
    encodeError cfg (headerOfBytes b) = none := by
  obtain ⟨-, -, -, -, hprv, hprf, hhl⟩ := decodeError_eq_none.1 hd
  have hf := (byteOfSeq b 2).isLt
  have hwidths : (flagPrf (byteOfSeq b 2)).toNat ≤ 3 ∧ (flagRte (byteOfSeq b 2)).toNat ≤ 1 ∧
      (flagEna (byteOfSeq b 2)).toNat ≤ 3 ∧ (flagCmp (byteOfSeq b 2)).toNat ≤ 1 ∧
      (flagPr (byteOfSeq b 2)).toNat ≤ 3 := by
    rw [flagPrf_toNat, flagRte_toNat, flagEna_toNat, flagCmp_toNat, flagPr_toNat]
    omega
  obtain ⟨hprf3, hrte, hena, hcmp, hpr⟩ := hwidths
  exact encodeError_eq_none.2 ⟨hprf3, hrte, hena, hcmp, hpr, hprv, hprf, hhl⟩

/-- 41_header_codec.md R73. -/
theorem hdrEnc_of_hdrDec {cfg : Config} {b : List Byte} {d : HeaderDecoded} (hc : cfg.legal)
    (hd : hdrDec cfg b = .ok d) : hdrEnc cfg d.header = .ok (b.take d.consumed) := by
  obtain ⟨hn, rfl⟩ := hdrDec_ok_iff.1 hd
  obtain ⟨-, -, hle, hcrc, -, -, hhl⟩ := decodeError_eq_none.1 hn
  rw [impliedLength_legal hc] at hhl
  have hspan : headerBytes (headerOfBytes b) (byteOfSeq b 2) = b.take ((byteOfSeq b 3).toNat - 1) :=
    headerBytes_headerOfBytes (by omega) (by omega)
  refine hdrEnc_ok_iff.2 ⟨encodeError_headerOfBytes hn, _, flagsPack_unpack _, ?_⟩
  have hlast : (byteOfSeq b 3).toNat - 1 < b.length := by omega
  show b.take (byteOfSeq b 3).toNat = _
  rw [hspan, hcrc, byteOfSeq_eq_getElem hlast, List.take_append_getElem hlast, Nat.sub_add_cancel (by omega)]

/-- Settles O38: a decoded header is encodable, and its bytes are the span it was decoded from. -/
theorem decodedHeaderEncodesBack : Obligations.DecodedHeaderEncodesBack :=
  fun _ _ _ hc hd => ⟨(hdrEnc_ok_iff.1 (hdrEnc_of_hdrDec hc hd)).1, hdrEnc_of_hdrDec hc hd⟩

end Sys2Proof.Machine
end

section
/-! PROOFS. The encoders on the state: HDRENC writes the header in the wire format (41_header_codec.md R69), and both
encoders report the first of the eight checks that fails (41_header_codec.md R67). -/

namespace Sys2Proof.Machine

/-! ## What HDRENC leaves -/

theorem exec_hdrenc_ok {s : State} {b : List Byte} (hb : hdrEnc Config.hardware s.header = .ok b) :
    exec .hdrenc s = .next (writeHeaderBytes b (s.startCommand (encode .hdrenc))).finish :=
  runCommand_ok (hdrencCommand_ok hb)

theorem byteAt_writeHeaderBytes (b : List Byte) (s : State) (a : Nat) :
    (writeHeaderBytes b s).byteAt .fb a = if a < b.length then byteOfSeq b a else s.byteAt .fb a := by
  rw [writeHeaderBytes, State.byteAt_setFlen, State.byteAt_setHcs, State.byteAt_setFlags, State.byteAt_store]
  simp only [Nat.zero_le, true_and, Nat.zero_add, Nat.sub_zero, byteOfSeq]

theorem byteAt_pb_writeHeaderBytes (b : List Byte) (s : State) (a : Nat) :
    (writeHeaderBytes b s).byteAt .pb a = s.byteAt .pb a := by
  rw [writeHeaderBytes, State.byteAt_setFlen, State.byteAt_setHcs, State.byteAt_setFlags,
    State.byteAt_store_ne _ (by decide)]

theorem writeHeaderBytes_flags (b : List Byte) (s : State) : (writeHeaderBytes b s).hdr.flags = byteOfSeq b 2 := by
  simp [writeHeaderBytes]

theorem writeHeaderBytes_hcs (b : List Byte) (s : State) :
    (writeHeaderBytes b s).hdr.hcs = byteOfSeq b (b.length - 1) := by simp [writeHeaderBytes]

theorem writeHeaderBytes_flen {b : List Byte} (hb : b.length < 2 ^ 17) (s : State) :
    (writeHeaderBytes b s).rng.flen.toNat = b.length := by
  rw [writeHeaderBytes, State.setFlen_flen, BitVec.toNat_ofNat, Nat.mod_eq_of_lt hb]

/-- FB holds in its first bytes the bytes of `b`. -/
def startsWith (t : State) (b : List Byte) : Prop := ∀ a, a < b.length → t.byteAt .fb a = byteOfSeq b a

theorem startsWith_writeHeaderBytes (b : List Byte) (s : State) : startsWith (writeHeaderBytes b s).finish b :=
  fun a ha => by rw [State.byteAt_finish, byteAt_writeHeaderBytes, if_pos ha]

/-! ## The wire format -/

theorem flagByte_toNat {cfg : Config} {h : Header} (he : encodeError cfg h = none) :
    h.flagByte.toNat = h.prf.toNat * 64 + h.rte.toNat * 32 + h.ena.toNat * 8 + h.cmp.toNat * 4 + h.pr.toNat := by
  obtain ⟨hprf, hrte, hena, hcmp, hpr, -⟩ := encodeError_eq_none.1 he
  rw [Header.flagByte, byteOf, BitVec.toNat_ofNat, Nat.mod_eq_of_lt (by omega)]

/-- The two bytes of a 16-bit field, low byte first, are the field (20_memory.md R37). -/
theorem lowByte_add_highByte (v : Half) : (lowByte v).toNat + 256 * (highByte v).toNat = v.toNat := by
  rw [← halfOf_toNat, halfOf_low_high]

theorem slice_of_startsWith {t : State} {b : List Byte} (h : startsWith t b) {n : Nat} (hn : n ≤ b.length) :
    t.slice .fb 0 n = b.take n := by
  apply List.ext_getElem
  · rw [State.slice_length, List.length_take, Nat.min_eq_left hn]
  · intro i hi _
    rw [State.slice_length] at hi
    have hib : i < b.length := by omega
    rw [List.getElem_take, ← byteOfSeq_eq_getElem hib, ← h i hib, ← byteOfSeq_eq_getElem, byteOfSeq_slice _ _ _ _ _ hi,
      Nat.zero_add]

/-- The fixed fields of an encodable header stand at the offsets of 30_encoding.md R56. -/
theorem fixedFieldsAt_of_startsWith {s t : State} {n : Nat} {r : List Byte} (hn : n < 65536)
    (he : encodeError Config.hardware (s.header.withLength n) = none)
    (ht : startsWith t (headerBytes (s.header.withLength n) (s.header.withLength n).flagByte ++ r)) :
    fixedFieldsAt s t n := by
  have hfdl : (BitVec.ofNat 16 n).toNat = n := by rw [BitVec.toNat_ofNat, Nat.mod_eq_of_lt hn]
  have hbyte : ∀ a, a < 10 → t.fbNat a =
      (byteOfSeq (headerBytes (s.header.withLength n) (s.header.withLength n).flagByte ++ r) a).toNat := fun a ha =>
    congrArg BitVec.toNat (ht a (by rw [List.length_append, headerBytes_length]; split <;> omega))
  rw [fixedFieldsAt, State.fbHalf, State.fbHalf, hbyte 0 (by decide), hbyte 1 (by decide), hbyte 2 (by decide),
    hbyte 3 (by decide), hbyte 4 (by decide), hbyte 5 (by decide), hbyte 6 (by decide), hbyte 7 (by decide),
    hbyte 8 (by decide), hbyte 9 (by decide)]
  refine ⟨(State.regNat_prv s).symm, (State.regNat_skid s).symm, ?_, (State.regNat_hl s).symm,
    (State.regNat_he s).symm, (lowByte_add_highByte _).trans hfdl,
    (lowByte_add_highByte _).trans (State.regNat_pid s).symm, (State.regNat_pt s).symm⟩
  rw [State.flagSum, State.regNat_prf, State.regNat_rte, State.regNat_ena, State.regNat_cmp, State.regNat_pr]
  exact flagByte_toNat he

/-- So does the routing block of a header with RTE = 1 (30_encoding.md R57). -/
theorem routingBlockAt_of_startsWith {s t : State} {n : Nat} {f : Byte} {r : List Byte} (hr : s.hdr.rte = 1)
    (ht : startsWith t (headerBytes (s.header.withLength n) f ++ r)) : routingBlockAt s t := by
  have hroute : routingBytes (s.header.withLength n) = _ := routingBytes_of_rte_eq hr
  rw [headerBytes, hroute] at ht
  have hbyte : ∀ a, a < 15 → t.fbNat a = _ := fun a ha =>
    congrArg BitVec.toNat (ht a (by rw [List.length_append]; exact Nat.lt_add_right _ ha))
  rw [routingBlockAt, State.fbHalf, State.fbHalf, hbyte 10 (by decide), hbyte 11 (by decide), hbyte 12 (by decide),
    hbyte 13 (by decide), hbyte 14 (by decide)]
  exact ⟨(lowByte_add_highByte _).trans (State.regNat_pra s).symm,
    (lowByte_add_highByte _).trans (State.regNat_rca s).symm, (State.regNat_ttl s).symm⟩

/-- FB that starts with the encoded header of `s` holds that header in the wire format, whatever the length in FDL. -/
theorem headerAt_of_startsWith {s t : State} {n : Nat} {b : List Byte} (hn : n < 65536)
    (hb : hdrEnc Config.hardware (s.header.withLength n) = .ok b) (ht : startsWith t b) :
    headerAt s t n s.hdr.hl.toNat := by
  have he : encodeError Config.hardware (s.header.withLength n) = none := (hdrEnc_ok_iff.1 hb).1
  obtain ⟨hlen, -⟩ := headerBytes_length_of_encodable hardware_legal he
  rw [hdrEnc_of_encodable he, Except.ok.injEq] at hb
  subst hb
  have hlast : s.hdr.hl.toNat - 1 = (headerBytes (s.header.withLength n) (s.header.withLength n).flagByte).length :=
    Nat.sub_eq_of_eq_add hlen.symm
  refine ⟨fixedFieldsAt_of_startsWith hn he ht, fun h16 => routingBlockAt_of_startsWith ?_ ht, ?_⟩
  · by_contra (hr : ¬(s.header.withLength n).rte = 1)
    rw [headerBytes_length, if_neg hr] at hlast
    omega
  · rw [hlast, slice_of_startsWith ht (by simp), ht _ (by simp), byteOfSeq_append_right le_rfl, Nat.sub_self,
      byteOfSeq_cons_zero, List.take_left]

/-- Settles O33: HDRENC stores the encoded header, and FLEN, FLAGS and HCS follow from its bytes. -/
theorem hdrencWritesTheWireFormat : Obligations.HdrencWritesTheWireFormat := by
  intro s hs
  have he := encodeError_of_encodable hs s.hdr.fdl.toNat
  rw [header_withLength_fdl] at he
  obtain ⟨b, hb⟩ : ∃ b, hdrEnc Config.hardware s.header = .ok b := ⟨_, hdrEnc_of_encodable he⟩
  obtain ⟨hlen, hhl⟩ := hdrEnc_length hardware_legal hb
  replace hlen : b.length = s.hdr.hl.toNat := hlen
  replace hhl : s.hdr.hl.toNat = 11 ∨ s.hdr.hl.toNat = 16 := hhl
  have hup := update_writeHeaderBytes (b := b) (hi := fun _ => b.length) le_rfl
  obtain ⟨hrun, hok, hregs, hhost⟩ := runCommand_completes (hdrencCommand_ok hb)
    (by simp [writeHeaderBytes])
    (sameRegsExcept_mono (hup.sameRegsExcept (s.startCommand (encode .hdrenc))) (List.subset_append_left _ _))
    (hup.host _)
  have hstart := startsWith_writeHeaderBytes b (s.startCommand (encode .hdrenc))
  rw [← header_withLength_fdl] at hb
  have hat := headerAt_of_startsWith s.hdr.fdl.isLt hb hstart
  have ⟨⟨_, _, hflags, _⟩, _⟩ := hat
  rw [State.regNat_fdl, State.regNat_hl]
  refine ⟨_, hrun, hok, hat, ?_, ?_, ?_, hregs, fun a ha => ?_, fun a => ?_, hhost⟩
  · rw [State.regNat_flen, State.finish_rng, writeHeaderBytes_flen (by omega), hlen]
  · rw [← hflags, State.regNat_flags, State.finish_hdr, writeHeaderBytes_flags, State.fbNat, hstart 2 (by omega)]
  · rw [State.regNat_hcs, State.finish_hdr, writeHeaderBytes_hcs, State.fbNat, ← hlen, hstart _ (by omega)]
  · rw [State.byteAt_finish, byteAt_writeHeaderBytes, if_neg (by omega), State.byteAt_startCommand]
  · rw [State.byteAt_finish, byteAt_pb_writeHeaderBytes, State.byteAt_startCommand]

/-! ## The first failing check -/

/-- The numbers of an error that names a register or a region fit ERRFIELD (60_exceptions.md R108). -/
theorem Err.named.field_lt {e : Err} (h : e.named) : e.field < 256 := by
  rcases h with h | h | h
  · omega
  · exact h.trans_lt (by decide)
  · exact h.trans_lt (by decide)

theorem encodeError_ofs_lt {cfg : Config} {h : Header} {e : Err} (he : encodeError cfg h = some e) :
    e.ofs < 2 ^ 32 := by
  simp only [encodeError] at he
  split_ifs at he <;> cases he <;> decide

/-- An encoder whose operands fail a check reports it and writes nothing (41_header_codec.md R69, 45_packet_codec.md
R95): FDL takes no part in the checks, and PLEN fits PB. -/
theorem encoder_raises {c : Instr} (hc : c = .hdrenc ∨ c = .pktenc) {s : State} {e : Err}
    (he : encodeError Config.hardware s.header = some e) :
    ∃ t, exec c s = .next t ∧ reportsError (encode c) e.code.num.toNat e.field e.ofs t ∧
      sameRegsExcept s t reportRegs ∧ sameBuffer .pb s t ∧ sameBuffer .fb s t ∧ sameHost s t := by
  have hf := (encodeError_named he).field_lt
  have ho := encodeError_ofs_lt he
  rcases hc with rfl | rfl
  · exact runCommand_raises (hdrencCommand_error (hdrEnc_error_of he)) hf ho
  · exact runCommand_raises (pktencCommand_hardware_error (hdrEnc_error_of he)) hf ho

/-- The eight checks of 41_header_codec.md R67 on the registers, for this hardware. -/
theorem encodeError_registers (s : State) :
    encodeError Config.hardware s.header =
      if 3 < s.regNat .prf then some ⟨.invalidField, 2, 2⟩
      else if 1 < s.regNat .rte then some ⟨.invalidField, 3, 2⟩
      else if 3 < s.regNat .ena then some ⟨.invalidField, 4, 2⟩
      else if 1 < s.regNat .cmp then some ⟨.invalidField, 5, 2⟩
      else if 3 < s.regNat .pr then some ⟨.invalidField, 6, 2⟩
      else if s.regNat .prv ≠ 1 then some ⟨.invalidField, 0, 0⟩
      else if s.regNat .prf ≠ 0 then some ⟨.invalidField, 2, 2⟩
      else if s.regNat .hl ≠ 11 + 5 * s.regNat .rte then some ⟨.invalidField, 7, 3⟩
      else none := by
  simp only [encodeError, hardware_supportedPrv, List.mem_singleton, impliedLength_hardware, byte_eq_one_iff, ne_eq,
    byte_eq_zero_iff, State.regNat_prv, State.regNat_prf, State.regNat_rte, State.regNat_ena, State.regNat_cmp,
    State.regNat_pr, State.regNat_hl]
  rfl

/-- Settles O34: each clause is one of the eight checks, with all before it passed. -/
theorem encodersReportTheFirstFailingCheck : Obligations.EncodersReportTheFirstFailingCheck := by
  intro c s hc field ofs h
  suffices he : encodeError Config.hardware s.header = some ⟨.invalidField, field, ofs⟩ from encoder_raises hc he
  rw [encodeError_registers]
  rcases h with ⟨hprf, rfl, rfl⟩ | ⟨hprf, hrte, rfl, rfl⟩ | ⟨hprf, hrte, hena, rfl, rfl⟩ |
    ⟨hprf, hrte, hena, hcmp, rfl, rfl⟩ | ⟨hprf, hrte, hena, hcmp, hpr, rfl, rfl⟩ |
    ⟨hprf, hrte, hena, hcmp, hpr, hprv, rfl, rfl⟩ | ⟨hprf, hrte, hena, hcmp, hpr, hprv, hprf0, rfl, rfl⟩ |
    ⟨hprf, hrte, hena, hcmp, hpr, hprv, hhl, rfl, rfl⟩
  · rw [if_pos hprf]
  · rw [if_neg hprf.not_gt, if_pos hrte]
  · rw [if_neg hprf.not_gt, if_neg hrte.not_gt, if_pos hena]
  · rw [if_neg hprf.not_gt, if_neg hrte.not_gt, if_neg hena.not_gt, if_pos hcmp]
  · rw [if_neg hprf.not_gt, if_neg hrte.not_gt, if_neg hena.not_gt, if_neg hcmp.not_gt, if_pos hpr]
  · rw [if_neg hprf.not_gt, if_neg hrte.not_gt, if_neg hena.not_gt, if_neg hcmp.not_gt, if_neg hpr.not_gt, if_pos hprv]
  · rw [if_neg hprf.not_gt, if_neg hrte.not_gt, if_neg hena.not_gt, if_neg hcmp.not_gt, if_neg hpr.not_gt,
      if_neg (not_not.2 hprv), if_pos hprf0]
  · rw [if_neg (by omega), if_neg hrte.not_gt, if_neg hena.not_gt, if_neg hcmp.not_gt, if_neg hpr.not_gt,
      if_neg (not_not.2 hprv), if_neg (not_not.2 hprf), if_pos hhl]

end Sys2Proof.Machine
end

section
/-! PROOFS. The decoders on the state: HDRDEC loads a decodable header (41_header_codec.md R71), and both decoders
report the first failing step (41_header_codec.md R70). -/

namespace Sys2Proof.Machine

/-! ## HDRDEC of a decodable header -/

theorem frameLengthError_of_le {s : State} (h : s.regNat .flen ≤ 65553) :
    frameLengthError Config.hardware s = none := by
  rw [State.regNat_flen] at h
  exact if_neg (Nat.not_lt.2 h)

theorem frameLengthError_of_gt {s : State} (h : 65553 < s.regNat .flen) :
    frameLengthError Config.hardware s = some ⟨.badRange, 19, s.regNat .flen⟩ := by
  rw [State.regNat_flen] at h ⊢
  exact if_pos h

/-- What the decoder finds in an FB with a decodable header. -/
def headerFound (s : State) : HeaderDecoded :=
  { header := headerOfBytes s.frame, hcs := s.byteAt .fb (s.fbNat 3 - 1), consumed := s.fbNat 3 }

theorem hdrdecCommand_headerGood {s : State} (h : s.headerGood) :
    hdrdecCommand Config.hardware s = (writeHeader (headerFound s) (s.byteAt .fb 2) s, none) := by
  have ⟨⟨_, hflen, _⟩, _⟩ := h
  exact hdrdecCommand_ok (frameLengthError_of_le hflen) (hdrDec_frame h)

theorem toNat_ite_zero {n m : Nat} {p q : Prop} [Decidable p] [Decidable q] {v : BitVec n} (h : p ↔ q)
    (hv : q → v.toNat = m) : (if p then v else 0).toNat = if q then m else 0 :=
  (apply_ite BitVec.toNat p v 0).trans (if_ctx_congr h hv fun _ => rfl)

theorem writeHeader_phase (d : HeaderDecoded) (flags : Byte) (s : State) :
    (writeHeader d flags s).ctl.phase = Phase.headerParsed.num := rfl

theorem writeHeader_cur (d : HeaderDecoded) (flags : Byte) (s : State) :
    (writeHeader d flags s).ctl.cur = BitVec.ofNat 17 d.consumed := rfl

theorem byteAt_writeHeader (d : HeaderDecoded) (flags : Byte) (s : State) (buf : Buf) (a : Nat) :
    (writeHeader d flags s).byteAt buf a = s.byteAt buf a := by simp [writeHeader]

/-- The loaded fields are those at the frame offsets of 30_encoding.md R56 and R57. -/
theorem headerLoaded_writeHeader {s : State} (h : s.headerGood) :
    headerLoaded s (writeHeader (headerFound s) (s.byteAt .fb 2) s) := by
  obtain ⟨⟨-, -, -, hspan⟩, -, -, hlen⟩ := h
  rw [State.lengthGood] at hlen
  rw [State.regNat_flen] at hspan
  have hbyte : ∀ i, i < s.fbNat 3 → (byteOfSeq s.frame i).toNat = s.fbNat i := fun i hi =>
    congrArg BitVec.toNat (frame_byte s (by omega))
  have hhalf : ∀ i, i + 1 < s.fbNat 3 → (halfOfSeq s.frame i).toNat = s.fbHalf i := fun i hi =>
    frame_half s (by omega)
  have hflags := hbyte 2 (by omega)
  have hrouted : flagRte (byteOfSeq s.frame 2) = 1 ↔ s.fbNat 2 / 32 % 2 = 1 := by
    rw [byte_eq_one_iff, flagRte_toNat, hflags]
  refine ⟨(State.regNat_prv _).trans (hbyte 0 (by omega)), (State.regNat_skid _).trans (hbyte 1 (by omega)),
    (State.regNat_prf _).trans ((flagPrf_toNat _).trans (by rw [hflags])),
    (State.regNat_rte _).trans ((flagRte_toNat _).trans (by rw [hflags])),
    (State.regNat_ena _).trans ((flagEna_toNat _).trans (by rw [hflags])),
    (State.regNat_cmp _).trans ((flagCmp_toNat _).trans (by rw [hflags])),
    (State.regNat_pr _).trans ((flagPr_toNat _).trans (by rw [hflags])),
    (State.regNat_hl _).trans (hbyte 3 (by omega)), (State.regNat_he _).trans (hbyte 4 (by omega)),
    (State.regNat_fdl _).trans (hhalf 5 (by omega)), (State.regNat_pid _).trans (hhalf 7 (by omega)),
    (State.regNat_pt _).trans (hbyte 9 (by omega)),
    (State.regNat_pra _).trans (toNat_ite_zero hrouted fun _ => hhalf 10 (by omega)),
    (State.regNat_rca _).trans (toNat_ite_zero hrouted fun _ => hhalf 12 (by omega)),
    (State.regNat_ttl _).trans (toNat_ite_zero hrouted fun _ => hbyte 14 (by omega)), State.regNat_hcs _,
    State.regNat_flags _⟩

/-- Settles O35: HDRDEC writes what the decoder finds, and the frame is not touched. -/
theorem hdrdecLoadsTheHeader : Obligations.HdrdecLoadsTheHeader := by
  intro s hs
  have hgood := (headerGood_startCommand s (encode .hdrdec)).2 hs
  have hup : Update (writeHeader (headerFound (s.startCommand (encode .hdrdec))) (s.byteAt .fb 2))
    (writtenRegs .hdrdec) fun _ => 0 := update_writeHeader _ (by decide) (by decide)
  obtain ⟨hrun, hok, hregs, hhost⟩ := runCommand_completes (hdrdecCommand_headerGood hgood) rfl
    (sameRegsExcept_mono (hup.sameRegsExcept _) (List.subset_append_left _ _)) (hup.host _)
  have hfb3 := (s.byteAt .fb 3).isLt
  refine ⟨_, hrun, hok, headerLoaded_writeHeader hgood, ?_, ?_, hregs, fun a => ?_, fun a => ?_, hhost⟩
  · rw [State.regNat_phase, State.finish_phase, writeHeader_phase]; rfl
  · rw [State.regNat_cur, State.finish_cur, writeHeader_cur, BitVec.toNat_ofNat]
    exact Nat.mod_eq_of_lt (by show (s.byteAt .fb 3).toNat < _; omega)
  · rw [State.byteAt_finish]; exact byteAt_writeHeader ..
  · rw [State.byteAt_finish]; exact byteAt_writeHeader ..

/-! ## The first failing step -/

/-- Steps 1 to 7 of 41_header_codec.md R70 on the frame in FB, for this hardware. -/
theorem decodeError_registers (s : State) :
    decodeError Config.hardware s.frame =
      if s.regNat .flen < 4 then some ⟨.truncated, 0x80, 4⟩
      else if s.fbNat 3 = 0 then some ⟨.checksumMismatch, 7, 3⟩
      else if s.regNat .flen < s.fbNat 3 then some ⟨.truncated, 0x80, s.fbNat 3⟩
      else if ¬s.headerChecksumGood then some ⟨.checksumMismatch, 15, s.fbNat 3 - 1⟩
      else if s.fbNat 0 ≠ 1 then some ⟨.unsupportedVersion, 0, 0⟩
      else if s.fbNat 2 / 64 ≠ 0 then some ⟨.unsupportedVersion, 2, 2⟩
      else if ¬s.lengthGood then some ⟨.invalidField, 7, 3⟩
      else none := by
  simp only [decodeError, frame_length, hardware_supportedPrv, List.mem_singleton, impliedLength_hardware,
    byte_eq_one_iff, byte_eq_zero_iff, flagPrf_toNat, flagRte_toNat, State.headerChecksumGood, State.lengthGood,
    State.fbNat, State.regNat_flen, ne_eq]
  by_cases h4 : s.rng.flen.toNat < 4
  · rw [if_pos h4, if_pos h4]; rfl
  · rw [if_neg h4, if_neg h4, frame_byte s (by omega : 3 < _), frame_byte s (by omega : 2 < _),
      frame_byte s (by omega : 0 < _)]
    by_cases h0 : (s.byteAt .fb 3).toNat = 0
    · rw [if_pos h0, if_pos h0]; rfl
    · by_cases hs : s.rng.flen.toNat < (s.byteAt .fb 3).toNat
      · rw [if_neg h0, if_neg h0, if_pos hs, if_pos hs]; rfl
      · rw [frame_byte s (by omega), frame_take s (by omega)]; rfl

/-- The error with which both decoders stop before a header is decoded, FLEN first (41_header_codec.md R71). -/
def decoderError (s : State) : Option Err :=
  (frameLengthError Config.hardware s).or (decodeError Config.hardware s.frame)

theorem decoderError_of_gt {s : State} (h : 65553 < s.regNat .flen) :
    decoderError s = some ⟨.badRange, 19, s.regNat .flen⟩ := by
  rw [decoderError, frameLengthError_of_gt h, Option.some_or]

theorem decoderError_of_le {s : State} (h : s.regNat .flen ≤ 65553) :
    decoderError s = decodeError Config.hardware s.frame := by
  rw [decoderError, frameLengthError_of_le h, Option.none_or]

theorem decodeError_ofs_lt {cfg : Config} {b : List Byte} {e : Err} (he : decodeError cfg b = some e) :
    e.ofs < 2 ^ 32 := by
  have hhl := (byteOfSeq b 3).isLt
  simp only [decodeError] at he
  split_ifs at he <;> cases he <;> simp only [invalidField] <;> omega

/-- Steps 4 to 7, when the declared span is there. -/
theorem decoderError_of_spanThere {s : State} (h : s.spanThere) :
    decoderError s =
      if ¬s.headerChecksumGood then some ⟨.checksumMismatch, 15, s.fbNat 3 - 1⟩
      else if s.fbNat 0 ≠ 1 then some ⟨.unsupportedVersion, 0, 0⟩
      else if s.fbNat 2 / 64 ≠ 0 then some ⟨.unsupportedVersion, 2, 2⟩
      else if ¬s.lengthGood then some ⟨.invalidField, 7, 3⟩
      else none := by
  obtain ⟨h4, hflen, h0, hspan⟩ := h
  rw [decoderError_of_le hflen, decodeError_registers, if_neg h4.not_gt, if_neg h0, if_neg hspan.not_gt]

/-- Its numbers fit ERRFIELD and ERROFS. -/
theorem decoderError_fits {s : State} {e : Err} (he : decoderError s = some e) : e.field < 256 ∧ e.ofs < 2 ^ 32 := by
  have hflen := s.rng.flen.isLt
  rw [← State.regNat_flen] at hflen
  rcases Nat.lt_or_ge 65553 (s.regNat .flen) with h | h
  · rw [decoderError_of_gt h] at he
    cases he
    exact ⟨(by decide : 19 < 256), (by omega : s.regNat .flen < 2 ^ 32)⟩
  · rw [decoderError_of_le h] at he
    exact ⟨(hdrDec_named (hdrDec_error_iff.2 he)).field_lt, decodeError_ofs_lt he⟩

theorem decoderError_startCommand (s : State) (w : Word) : decoderError (s.startCommand w) = decoderError s := by
  rw [decoderError, decoderError, frame_startCommand]
  rfl

/-- Both decoders stop at that error, with PHASE and CUR restarted. -/
theorem commandBody_of_decoderError {c : Instr} (hc : c = .hdrdec ∨ c = .pktdec) {s : State} {e : Err}
    (he : decoderError s = some e) : commandBody c s = (s.setPhase .start 0, some e) := by
  rw [decoderError, Option.or_eq_some_iff] at he
  rcases he with he | ⟨hflen, he⟩
  · rcases hc with rfl | rfl
    · exact hdrdecCommand_badRange he
    · exact pktdecCommand_badRange he
  · rw [← hdrDec_error_iff] at he
    rcases hc with rfl | rfl
    · exact hdrdecCommand_error hflen he
    · exact pktdecCommand_error hflen he

/-- A decoder that stops before its header is decoded: PHASE is Start, CUR 0, and nothing else is written
(41_header_codec.md R71, 45_packet_codec.md R98). -/
theorem decoder_raises {c : Instr} (hc : c = .hdrdec ∨ c = .pktdec) {s : State} {e : Err}
    (he : decoderError s = some e) :
    ∃ t, exec c s = .next t ∧ reportsError (encode c) e.code.num.toNat e.field e.ofs t ∧ t.regNat .phase = 0 ∧
      t.regNat .cur = 0 ∧ sameRegsExcept s t ([.phase, .cur] ++ reportRegs) ∧ sameBuffer .pb s t ∧
      sameBuffer .fb s t ∧ sameHost s t := by
  have hclr : c ≠ .clr := by rcases hc with rfl | rfl <;> decide
  obtain ⟨hf, ho⟩ := decoderError_fits he
  rw [← decoderError_startCommand s (encode c)] at he
  obtain ⟨hnext, herr, hregs, hhost⟩ := runCommand_fails (commandBody_of_decoderError hc he) hf ho rfl
    (sameRegsExcept_mono (fun r hr => State.reg_setPhase _ _ _ hr) (List.subset_append_left _ _)) ⟨rfl, rfl, rfl⟩
  exact ⟨_, (exec_eq_runCommand hclr s).trans hnext, herr, by simp [Phase.num], by simp, hregs, fun a => by simp,
    fun a => by simp, hhost⟩

/-- Settles O36: each clause is one step of the decoder, with all before it passed. -/
theorem decodersReportTheFirstFailingStep : Obligations.DecodersReportTheFirstFailingStep := by
  intro c s hc code field ofs h
  suffices he : ∃ e, decoderError s = some e ∧ e.code.num.toNat = code ∧ e.field = field ∧ e.ofs = ofs by
    obtain ⟨e, he, rfl, rfl, rfl⟩ := he
    exact decoder_raises hc he
  rcases h with ⟨hflen, rfl, rfl, rfl⟩ | ⟨h4, rfl, rfl, rfl⟩ | ⟨h4, hflen, h0, rfl, rfl, rfl⟩ |
    ⟨h4, hflen, hspan, rfl, rfl, rfl⟩ | ⟨hthere, hcrc, rfl, rfl, rfl⟩ |
    ⟨hthere, hcrc, hprv, rfl, rfl, rfl⟩ | ⟨hthere, hcrc, hprv, hprf, rfl, rfl, rfl⟩ |
    ⟨hthere, hcrc, ⟨hprv, hprf⟩, hlen, rfl, rfl, rfl⟩
  · exact ⟨_, decoderError_of_gt hflen, rfl, rfl, rfl⟩
  · rw [decoderError_of_le (by omega), decodeError_registers, if_pos h4]
    exact ⟨_, rfl, rfl, rfl, rfl⟩
  · rw [decoderError_of_le hflen, decodeError_registers, if_neg h4.not_gt, if_pos h0]
    exact ⟨_, rfl, rfl, rfl, rfl⟩
  · rw [decoderError_of_le hflen, decodeError_registers, if_neg h4.not_gt, if_neg (by omega), if_pos hspan]
    exact ⟨_, rfl, rfl, rfl, rfl⟩
  · rw [decoderError_of_spanThere hthere, if_pos hcrc]
    exact ⟨_, rfl, rfl, rfl, rfl⟩
  · rw [decoderError_of_spanThere hthere, if_neg (not_not.2 hcrc), if_pos hprv]
    exact ⟨_, rfl, rfl, rfl, rfl⟩
  · rw [decoderError_of_spanThere hthere, if_neg (not_not.2 hcrc), if_neg (not_not.2 hprv), if_pos hprf]
    exact ⟨_, rfl, rfl, rfl, rfl⟩
  · rw [decoderError_of_spanThere hthere, if_neg (not_not.2 hcrc), if_neg (not_not.2 hprv), if_neg (not_not.2 hprf),
      if_pos hlen]
    exact ⟨_, rfl, rfl, rfl, rfl⟩

end Sys2Proof.Machine
end

section
/-! PROOFS. The header round trip in registers (41_header_codec.md R72): HDRDEC finds in FB the header that HDRENC has
just written. -/

namespace Sys2Proof.Machine

/-- An HDRENC that reports no error has encoded its operands. -/
theorem exec_hdrenc_inv {s t : State} (ht : exec .hdrenc s = .next t) (hcode : t.reg .errcode = 0) :
    ∃ b, hdrEnc Config.hardware s.header = .ok b ∧
      t = (writeHeaderBytes b (s.startCommand (encode .hdrenc))).finish := by
  cases hb : hdrEnc Config.hardware s.header with
  | error e =>
    obtain ⟨u, hu, ⟨-, -, hcode', -⟩, -⟩ := encoder_raises (.inl rfl) (hdrEnc_error_inv hb)
    rw [ht] at hu
    cases hu
    rw [hcode] at hcode'
    cases he : e.code <;> rw [he] at hcode' <;> cases hcode'
  | ok b =>
    rw [exec_hdrenc_ok hb] at ht
    cases ht
    exact ⟨b, rfl, rfl⟩

/-- FB holds the header HDRENC wrote, and FLEN its length. -/
theorem frame_writeHeaderBytes {b : List Byte} (hb : b.length < 2 ^ 17) (s : State) :
    (writeHeaderBytes b s).finish.frame = b := by
  have hflen : (writeHeaderBytes b s).finish.frameLength = b.length := writeHeaderBytes_flen hb s
  rw [State.frame, hflen, slice_of_startsWith (startsWith_writeHeaderBytes b s) le_rfl, List.take_length]

theorem exec_hdrdec_ok {s : State} {d : HeaderDecoded} (hflen : s.regNat .flen ≤ 65553)
    (hd : hdrDec Config.hardware s.frame = .ok d) :
    exec .hdrdec s = .next (writeHeader d (s.byteAt .fb 2) (s.startCommand (encode .hdrdec))).finish :=
  runCommand_ok (hdrdecCommand_ok (frameLengthError_of_le hflen) (by rwa [frame_startCommand]))

/-- The header a decoder gives keeps every field outside the routing block. -/
theorem visible_eq (h : Header) :
    h.visible = { h with
      pra := if h.rte = 1 then h.pra else 0
      rca := if h.rte = 1 then h.rca else 0
      ttl := if h.rte = 1 then h.ttl else 0 } := by
  by_cases hr : h.rte = 1
  · rw [visible_of_rte_eq hr, if_pos hr, if_pos hr, if_pos hr]
  · rw [visible_of_rte_ne hr, if_neg hr, if_neg hr, if_neg hr]

theorem byte_eq_one_iff_word (b : Byte) : b = 1 ↔ b.setWidth 32 = 1 := by
  rw [byte_eq_one_iff, ← BitVec.toNat_inj, setWidth_toNat_of_le b (by decide)]
  rfl

theorem setWidth_ite_zero {n : Nat} {p q : Prop} [Decidable p] [Decidable q] (h : p ↔ q) (v : BitVec n) :
    (if p then v else 0).setWidth 32 = if q then v.setWidth 32 else 0 :=
  (apply_ite (BitVec.setWidth 32) p v 0).trans (if_ctx_congr h (fun _ => rfl) fun _ => BitVec.setWidth_zero ..)

/-- Settles O37: on values by `hdrDec_of_hdrEnc`; in registers because FB then holds what HDRENC encoded. -/
theorem headerRoundTrip : Obligations.HeaderRoundTrip := by
  refine ⟨fun cfg h b t hc hb => hdrDec_of_hdrEnc hc hb t, fun s t ht hcode => ?_⟩
  obtain ⟨b, hb, rfl⟩ := exec_hdrenc_inv ht hcode
  obtain ⟨hlen, hhl⟩ := hdrEnc_length hardware_legal hb
  have hrte : s.hdr.rte = 1 ↔ s.reg .rte = 1 := byte_eq_one_iff_word _
  have hframe := frame_writeHeaderBytes (by omega : b.length < 2 ^ 17) (s.startCommand (encode .hdrenc))
  have hflen := writeHeaderBytes_flen (by omega : b.length < 2 ^ 17) (s.startCommand (encode .hdrenc))
  have hflags := startsWith_writeHeaderBytes b (s.startCommand (encode .hdrenc)) 2 (by omega)
  have hdec := hdrDec_of_hdrEnc hardware_legal hb []
  rw [List.append_nil, visible_eq] at hdec
  refine ⟨_, exec_hdrdec_ok (by rw [State.regNat_flen, State.finish_rng, hflen]; omega)
    ((congrArg _ hframe).trans hdec), reportsOk_finish rfl, fun r hr => ?_, fun r hr => ?_⟩
  · rw [hflags]
    simp only [List.mem_cons, List.not_mem_nil, or_false] at hr
    rcases hr with rfl | rfl | rfl | rfl | rfl | rfl | rfl | rfl | rfl | rfl | rfl | rfl | rfl | rfl <;> rfl
  · simp only [List.mem_cons, List.not_mem_nil, or_false] at hr
    rcases hr with rfl | rfl | rfl <;> exact setWidth_ite_zero hrte _

end Sys2Proof.Machine
end

section
/-! PROOFS. The bit-field commands (42_bitfield.md R74 to R80): packing and unpacking are inverse on values, so BFPACK
places the very fields that BFUNPACK extracts; and both refuse what the width test refuses. -/

namespace Sys2Proof.Machine

/-! ## Commands that write registers alone -/

/-- A command whose body completes normally with one update of the registers `regs` and of no buffer byte. -/
theorem runCommand_updates {f : State → State} {regs : List Reg} {w : Word} {body : State → State × Option Err}
    {s : State} (hf : Update f regs fun _ => 0) (hcmd : .cmd ∉ regs)
    (h : body (s.startCommand w) = (f (s.startCommand w), none)) :
    runCommand w body s = .next (f (s.startCommand w)).finish ∧ reportsOk w (f (s.startCommand w)).finish ∧
      sameRegsExcept s (f (s.startCommand w)).finish (regs ++ reportRegs) ∧
      sameBuffer .pb s (f (s.startCommand w)).finish ∧ sameBuffer .fb s (f (s.startCommand w)).finish ∧
      sameHost s (f (s.startCommand w)).finish := by
  have hbuf : ∀ buf, sameBuffer buf s (f (s.startCommand w)).finish := fun buf a => by
    rw [State.byteAt_finish, sameBuffer_of_sameOutside (hf.sameOutside _ buf) rfl a, State.byteAt_startCommand]
  obtain ⟨hrun, hok, hregs, hhost⟩ := runCommand_completes h (hf.sameRegsExcept _ .cmd hcmd)
    (sameRegsExcept_mono (hf.sameRegsExcept _) (List.subset_append_left _ _)) (hf.host _)
  exact ⟨hrun, hok, hregs, hbuf .pb, hbuf .fb, hhost⟩

/-! ## Packing and unpacking values (42_bitfield.md R75 to R77) -/

theorem byteOf_toNat {n : Nat} (h : n < 256) : (byteOf n).toNat = n := by
  rw [byteOf, BitVec.toNat_ofNat, Nat.mod_eq_of_lt h]

/-- Field `i` of a byte: bits p_i + w_i - 1 down to p_i (42_bitfield.md R76). -/
theorem bfUnpack_getD (b : Byte) {ws : List Nat} {i : Nat} (hi : i < ws.length) :
    (bfUnpack b ws).getD i 0 = b.toNat / 2 ^ (8 - (ws.take (i + 1)).sum) % 2 ^ ws.getD i 0 :=
  unpackBelow_getD b.toNat hi

/-- Above the last field there is nothing. -/
theorem bfUnpack_getD_of_le (b : Byte) {ws : List Nat} {i : Nat} (hi : ws.length ≤ i) :
    (bfUnpack b ws).getD i 0 = 0 :=
  List.getD_eq_default _ _ ((unpackBelow_length _ _ _).trans_le hi)

theorem bfUnpack_getD_lt (b : Byte) (ws : List Nat) (i : Nat) : (bfUnpack b ws).getD i 0 < 256 := by
  rcases Nat.lt_or_ge i ws.length with hi | hi
  · rw [bfUnpack_getD b hi]
    exact ((Nat.mod_le _ _).trans (Nat.div_le_self _ _)).trans_lt b.isLt
  · rw [bfUnpack_getD_of_le b hi]
    decide

/-- The fields of a byte fit, and packed they are the byte: the widths leave no bit unused. -/
theorem bfPack_bfUnpack (b : Byte) {ws : List Nat} (hs : ws.sum = 8) : bfPack (bfUnpack b ws) ws = .ok b := by
  have hfit : firstOverflow 0 (bfUnpack b ws) ws = none :=
    (firstOverflow_eq_none (unpackBelow_length _ _ _)).2 fun _ hi => unpackBelow_fits b.toNat hi
  rw [bfPack_ok hfit, bfUnpack, packBelow_unpackBelow hs, Nat.mod_eq_of_lt b.isLt, byteOf, BitVec.ofNat_toNat,
    BitVec.setWidth_eq]

/-- The fields of a packed byte are the values packed. -/
theorem bfUnpack_of_bfPack {vs ws : List Nat} {b : Byte} (hl : vs.length = ws.length) (hs : ws.sum = 8)
    (h : bfPack vs ws = .ok b) : bfUnpack b ws = vs := by
  have hnone := bfPack_inv h
  have hfit := (firstOverflow_eq_none hl).1 hnone
  rw [bfPack_ok hnone, Except.ok.injEq] at h
  have hunpack := unpackBelow_packBelow hl hs hfit 0
  rw [Nat.zero_mul, Nat.zero_add] at hunpack
  rw [← h, bfUnpack, byteOf_toNat (packBelow_lt hl hs hfit), hunpack]

/-- Settles O29: both directions hold because the fields tile the byte. -/
theorem packAndUnpackAreInverse : Obligations.PackAndUnpackAreInverse := by
  rintro ws ⟨-, -, -, hs⟩
  exact ⟨fun b => bfPack_bfUnpack b hs, fun _ _ hl h => bfUnpack_of_bfPack hl hs h⟩

/-! ## The operand file (10_state.md R23) -/

theorem pairCount_eq (s : State) : s.pairCount = s.regNat .bfn := (State.regNat_bfn s).symm

theorem widths_length {s : State} (hn : s.regNat .bfn ≤ 8) : s.widths.length = s.regNat .bfn := by
  rw [State.widths, List.length_take, pairCount_eq]
  exact Nat.min_eq_left hn

theorem values_length_eq (s : State) : s.values.length = s.widths.length := by
  rw [State.values, State.widths, List.length_take, List.length_take]
  rfl

/-- A width register is 4 bits wide. -/
theorem le_of_mem_widths {s : State} {w : Nat} (h : w ∈ s.widths) : w ≤ 15 := by
  have hmem : w ∈ s.allWidths := List.mem_of_mem_take h
  simp only [State.allWidths, List.mem_cons, List.not_mem_nil, or_false] at hmem
  omega

theorem widths_sum_le (s : State) : s.widths.sum ≤ 120 :=
  calc s.widths.sum ≤ s.widths.length * 15 := List.sum_le_card_nsmul _ _ fun _ => le_of_mem_widths
    _ ≤ 8 * 15 := Nat.mul_le_mul_right _ (widths_length_le s)

/-- The value registers after BFUNPACK hold the values below 256 that it found, and 0 beyond them. -/
theorem allValues_setBfValues (s : State) {vs : List Nat} (hl : vs.length ≤ 8) (hv : ∀ i, vs.getD i 0 < 256)
    (i : Nat) : (s.setBfValues vs).allValues.getD i 0 = vs.getD i 0 := by
  have hall : (s.setBfValues vs).allValues = (List.range 8).map fun j => (byteOf (vs.getD j 0)).toNat := rfl
  rcases Nat.lt_or_ge i 8 with hi | hi
  · rw [hall, List.getD_eq_getElem _ _ (by simpa using hi), List.getElem_map, List.getElem_range,
      byteOf_toNat (hv i)]
  · rw [List.getD_eq_default _ _ hi, List.getD_eq_default _ _ (hl.trans hi)]

theorem bfCheck_of_widthsWellFormed {s : State} (hn : s.regNat .bfn ≤ 8) (h : widthsWellFormed s.widths) :
    bfCheck s.pairCount s.widths = .ok () := by
  obtain ⟨hpos, -, hw, hs⟩ := h
  rw [widths_length hn, ← pairCount_eq] at hpos
  exact bfCheck_ok (by rwa [pairCount_eq]) (by omega) hw hs

/-! ## BFPACK and BFUNPACK of well-formed widths -/

/-- Settles O25: BFBYTE is the packed byte, and its fields are the values. -/
theorem bfpackPlacesEveryField : Obligations.BfpackPlacesEveryField := by
  intro s hn hwf hfit
  have ⟨_, _, _, hs⟩ := hwf
  have hl := values_length_eq s
  have hnone : firstOverflow 0 s.values s.widths = none :=
    (firstOverflow_eq_none hl).2 fun i hi => hfit i (by rwa [← widths_length hn])
  obtain ⟨b, hb⟩ : ∃ b, bfPack s.values s.widths = .ok b := ⟨_, bfPack_ok hnone⟩
  have hbody : bfpackCommand (s.startCommand 3) = ((s.startCommand 3).setBfbyte b, none) :=
    bfpackCommand_ok (bfCheck_of_widthsWellFormed hn hwf) hb
  obtain ⟨hrun, hok, hframe⟩ := runCommand_updates (update_setBfbyte b (List.Subset.refl _)) (by decide) hbody
  refine ⟨_, hrun, hok, fun i hi => ?_, hframe⟩
  rw [State.regNat_bfbyte, State.finish_bf, State.setBfbyte_bfbyte, ← bfUnpack_getD b (by rwa [widths_length hn]),
    bfUnpack_of_bfPack hl hs hb]

/-- Settles O26: the packer finds the lowest value that does not fit. -/
theorem bfpackReportsTheLowestOverflow : Obligations.BfpackReportsTheLowestOverflow := by
  intro s i hn hwf hi hbad hlow
  have hl := values_length_eq s
  have hsome := firstOverflow_eq_some (k := 0) hl (by rwa [widths_length hn]) hbad hlow
  rw [Nat.zero_add] at hsome
  exact runCommand_raises (bfpackCommand_overflow (bfCheck_of_widthsWellFormed hn hwf) (bfPack_error hsome))
    (show 26 + i < 256 by omega) (show i < 2 ^ 32 by omega)

/-- Settles O28: the value registers hold the unpacked fields. -/
theorem bfunpackExtractsEveryField : Obligations.BfunpackExtractsEveryField := by
  intro s hn hwf
  have hbody : bfunpackCommand (s.startCommand 4) =
      ((s.startCommand 4).setBfValues (bfUnpack s.bf.bfbyte s.widths), none) :=
    bfunpackCommand_ok (bfCheck_of_widthsWellFormed hn hwf)
  obtain ⟨hrun, hok, hframe⟩ :=
    runCommand_updates (update_setBfValues (bfUnpack s.bf.bfbyte s.widths) (List.Subset.refl _)) (by decide) hbody
  have hvalues := allValues_setBfValues (s.startCommand 4)
    ((unpackBelow_length s.bf.bfbyte.toNat 8 s.widths).trans_le (widths_length_le s))
    (bfUnpack_getD_lt s.bf.bfbyte s.widths)
  refine ⟨_, hrun, hok, fun i hi => ?_, fun i hi => ?_, hframe⟩
  · rw [State.regNat_bfbyte, ← bfUnpack_getD _ (by rwa [widths_length hn])]
    exact hvalues i
  · exact (hvalues i).trans (bfUnpack_getD_of_le _ (by rwa [widths_length hn]))

/-! ## Widths that are refused -/

/-- BFPACK and BFUNPACK raise what the width test finds, having written nothing (42_bitfield.md R79, R80). -/
theorem bitField_raises {c : Instr} (hc : c = .bfpack ∨ c = .bfunpack) {s : State} {e : Err}
    (he : bfCheck s.pairCount s.widths = .error e) (ho : e.ofs < 2 ^ 32) :
    ∃ t, exec c s = .next t ∧ reportsError (encode c) e.code.num.toNat e.field e.ofs t ∧
      sameRegsExcept s t reportRegs ∧ sameBuffer .pb s t ∧ sameBuffer .fb s t ∧ sameHost s t := by
  have hf := (bfCheck_named (widths_length_le s) he).field_lt
  rcases hc with rfl | rfl
  · exact runCommand_raises (bfpackCommand_badWidths he) hf ho
  · exact runCommand_raises (bfunpackCommand_error he) hf ho

theorem bfCheck_of_badWidth {n i w : Nat} {ws : List Nat} (hn0 : n ≠ 0) (hn : n ≤ 8)
    (h : firstBadWidth 0 ws = some (i, w)) : bfCheck n ws = .error ⟨.bitFieldBadWidths, 34 + i, w⟩ := by
  rw [bfCheck, if_neg (by omega), h]
  rfl

theorem bfCheck_of_badSum {n : Nat} {ws : List Nat} (hn0 : n ≠ 0) (hn : n ≤ 8) (hw : ∀ w ∈ ws, 1 ≤ w ∧ w ≤ 8)
    (hs : ws.sum ≠ 8) : bfCheck n ws = .error ⟨.bitFieldBadWidths, 24, ws.sum⟩ := by
  rw [bfCheck, if_neg (by omega), firstBadWidth_eq_none.2 hw]
  exact if_pos hs

/-- Settles O27: each clause is one answer of the width test, with the tests before it passed. -/
theorem badWidthsAreRefusedInOrder : Obligations.BadWidthsAreRefusedInOrder := by
  intro c s hc
  rw [← pairCount_eq]
  refine ⟨fun hn => ?_, fun i hi hn hbad hlow => ?_, fun hpos hn hw hs => ?_⟩
  · exact bitField_raises hc (bfCheck_of_count hn _) (s.bf.bfn.isLt.trans (by decide))
  · have hlen : i < s.widths.length := by rwa [widths_length (pairCount_eq s ▸ hn), ← pairCount_eq]
    have hfirst := firstBadWidth_eq_some (k := 0) hlen hbad hlow
    rw [Nat.zero_add] at hfirst
    have hwidth : s.widths.getD i 0 ≤ 15 := by
      rw [List.getD_eq_getElem _ _ hlen]
      exact le_of_mem_widths (List.getElem_mem hlen)
    exact bitField_raises hc (bfCheck_of_badWidth (by omega) hn hfirst) (hwidth.trans_lt (by decide))
  · exact bitField_raises hc (bfCheck_of_badSum (by omega) hn hw hs) ((widths_sum_le s).trans_lt (by decide))

end Sys2Proof.Machine
end

section
/-! PROOFS. The header flag byte in registers (42_bitfield.md R78, R81, R82): FLGPACK packs the five fields or reports
the first that does not fit, FLGUNPACK splits the byte again, and each undoes the other. -/

namespace Sys2Proof.Machine

/-! ## FLGUNPACK -/

theorem exec_flgunpack (s : State) :
    exec .flgunpack s = .next (writeFlagFields s.hdr.flags (s.startCommand (encode .flgunpack))).finish :=
  runCommand_ok (flgunpackCommand_eq _)

/-- Settles O31: the five fields are the quotients and remainders that `flagPrf` to `flagPr` take. -/
theorem flgunpackSplitsTheFlagByte : Obligations.FlgunpackSplitsTheFlagByte := by
  intro s
  obtain ⟨hrun, hok, hframe⟩ := runCommand_updates (f := writeFlagFields s.hdr.flags)
    (update_setFlagFields _ _ _ _ _ (List.Subset.refl _)) (by decide) (flgunpackCommand_eq (s.startCommand 6))
  refine ⟨_, hrun, hok, ?_, ?_, ?_, ?_, ?_, hframe⟩ <;> rw [State.regNat_flags]
  · exact (State.regNat_prf _).trans (flagPrf_toNat _)
  · exact (State.regNat_rte _).trans (flagRte_toNat _)
  · exact (State.regNat_ena _).trans (flagEna_toNat _)
  · exact (State.regNat_cmp _).trans (flagCmp_toNat _)
  · exact (State.regNat_pr _).trans (flagPr_toNat _)

/-! ## FLGPACK -/

/-- Five fields that fit their widths are packed to PRF*64 + RTE*32 + ENA*8 + CMP*4 + PR (30_encoding.md R58). -/
theorem packedFlags_ok {s : State} (hprf : s.regNat .prf ≤ 3) (hrte : s.regNat .rte ≤ 1) (hena : s.regNat .ena ≤ 3)
    (hcmp : s.regNat .cmp ≤ 1) (hpr : s.regNat .pr ≤ 3) :
    s.packedFlags = .ok (byteOf s.flagSum) ∧ (byteOf s.flagSum).toNat = s.flagSum := by
  refine ⟨?_, byteOf_toNat (by rw [State.flagSum]; omega)⟩
  rw [State.regNat_prf] at hprf
  rw [State.regNat_rte] at hrte
  rw [State.regNat_ena] at hena
  rw [State.regNat_cmp] at hcmp
  rw [State.regNat_pr] at hpr
  rw [State.packedFlags, flagsPack_ok hprf hrte hena hcmp hpr, State.flagSum, State.regNat_prf, State.regNat_rte,
    State.regNat_ena, State.regNat_cmp, State.regNat_pr]

/-- A field fits when it does not exceed the largest value of its width. -/
theorem flagWidths_bound : ∀ j, j < 5 → 2 ^ flagWidths.getD j 0 = [3, 1, 3, 1, 3].getD j 0 + 1 := by decide

/-- The first of the five fields that exceeds its width is the one the packer reports. -/
theorem packedFlags_error {s : State} {i : Nat} (hi : i < 5)
    (hbad : [3, 1, 3, 1, 3].getD i 0 <
      [s.regNat .prf, s.regNat .rte, s.regNat .ena, s.regNat .cmp, s.regNat .pr].getD i 0)
    (hlow : ∀ j, j < i → [s.regNat .prf, s.regNat .rte, s.regNat .ena, s.regNat .cmp, s.regNat .pr].getD j 0 ≤
      [3, 1, 3, 1, 3].getD j 0) :
    s.packedFlags = .error ⟨.bitFieldOverflow, 26 + i, i⟩ := by
  have hsome := firstOverflow_eq_some (k := 0) (ws := flagWidths) (by rfl) hi
    ((flagWidths_bound i hi).trans_le hbad)
    fun j hj => (Nat.lt_succ_of_le (hlow j hj)).trans_eq (flagWidths_bound j (hj.trans hi)).symm
  rw [Nat.zero_add, State.regNat_prf, State.regNat_rte, State.regNat_ena, State.regNat_cmp, State.regNat_pr] at hsome
  exact bfPack_error hsome

/-- FLGPACK of fields that cannot be packed reports field i as register 2 + i and writes nothing. -/
theorem flgpack_raises {s : State} {e : Err} (he : s.packedFlags = .error e) :
    ∃ t, exec .flgpack s = .next t ∧ reportsError 5 6 (2 + e.ofs) e.ofs t ∧ sameRegsExcept s t reportRegs ∧
      sameBuffer .pb s t ∧ sameBuffer .fb s t ∧ sameHost s t := by
  obtain ⟨-, ho⟩ := bfPack_error_inv he
  replace ho : e.ofs < 5 := ho
  exact runCommand_raises (flgpackCommand_error he) (show 2 + e.ofs < 256 by omega) (show e.ofs < 2 ^ 32 by omega)

theorem exec_flgpack_ok {s : State} {b : Byte} (hb : s.packedFlags = .ok b) :
    exec .flgpack s = .next ((s.startCommand (encode .flgpack)).setFlags b).finish :=
  runCommand_ok (flgpackCommand_ok hb)

/-- Settles O30: the packed byte is the weighted sum, and otherwise the first field too wide is named. -/
theorem flgpackPacksOrReportsTheFirstOverflow : Obligations.FlgpackPacksOrReportsTheFirstOverflow := by
  refine fun s => ⟨fun hprf hrte hena hcmp hpr => ?_,
    fun i hi hbad hlow => flgpack_raises (packedFlags_error hi hbad hlow)⟩
  obtain ⟨hpack, hsum⟩ := packedFlags_ok hprf hrte hena hcmp hpr
  have hbody : flgpackCommand (s.startCommand 5) = ((s.startCommand 5).setFlags (byteOf s.flagSum), none) :=
    flgpackCommand_ok hpack
  obtain ⟨hrun, hok, hframe⟩ := runCommand_updates (update_setFlags _ (List.Subset.refl _)) (by decide) hbody
  exact ⟨_, hrun, hok, (State.regNat_flags _).trans hsum, hframe⟩

/-! ## Each undoes the other (42_bitfield.md R77) -/

/-- The fields of a flag byte that was packed are the five operands. -/
theorem flags_of_flagsPack {prf rte ena cmp pr f : Byte} (h : flagsPack prf rte ena cmp pr = .ok f) :
    flagPrf f = prf ∧ flagRte f = rte ∧ flagEna f = ena ∧ flagCmp f = cmp ∧ flagPr f = pr := by
  obtain ⟨hprf, hrte, hena, hcmp, hpr⟩ := flagsPack_inv h
  rw [flagsPack_ok hprf hrte hena hcmp hpr, Except.ok.injEq] at h
  subst h
  exact flags_of_sum hprf hrte hena hcmp hpr

/-- A FLGPACK that reports no error has packed its operands. -/
theorem exec_flgpack_inv {s t : State} (ht : exec .flgpack s = .next t) (hcode : t.reg .errcode = 0) :
    ∃ b, s.packedFlags = .ok b ∧ t = ((s.startCommand (encode .flgpack)).setFlags b).finish := by
  cases hb : s.packedFlags with
  | error e =>
    obtain ⟨u, hu, ⟨-, -, hcode', -⟩, -⟩ := flgpack_raises hb
    rw [ht] at hu
    cases hu
    rw [hcode] at hcode'
    cases hcode'
  | ok b =>
    rw [exec_flgpack_ok hb] at ht
    cases ht
    exact ⟨b, rfl, rfl⟩

/-- Settles O32: the fields of any byte pack back to it, and the packed byte splits into the operands. -/
theorem flagCommandsAreInverse : Obligations.FlagCommandsAreInverse := by
  refine fun s t u => ⟨fun ht hu => ?_, fun ht hcode hu => ?_⟩
  · rw [exec_flgunpack] at ht
    cases ht
    have hpack : (writeFlagFields s.hdr.flags (s.startCommand (encode .flgunpack))).finish.packedFlags =
        .ok s.hdr.flags := flagsPack_unpack s.hdr.flags
    rw [exec_flgpack_ok hpack] at hu
    cases hu
    exact ⟨reportsOk_finish rfl, rfl⟩
  · obtain ⟨b, hb, rfl⟩ := exec_flgpack_inv ht hcode
    obtain ⟨hprf, hrte, hena, hcmp, hpr⟩ := flags_of_flagsPack hb
    rw [exec_flgunpack] at hu
    cases hu
    have hreg : ∀ {v w : Byte}, v = w → v.setWidth 32 = w.setWidth 32 := congrArg _
    exact ⟨hreg hprf, hreg hrte, hreg hena, hreg hcmp, hreg hpr⟩

end Sys2Proof.Machine
end

section
/-! PROOFS. The range test that both CRC commands make (43_crc8.md R87, 44_crc16.md R92), and the command CRC8. -/

namespace Sys2Proof.Machine

/-! ## The range FB[RS .. RS+RL) -/

section
variable {s : State}

theorem crcRange_eq_slice (s : State) : s.crcRange = s.slice .fb (s.regNat .rs) (s.regNat .rl) := by
  rw [State.crcRange, State.rangeStart, State.rangeLength, State.regNat_rs, State.regNat_rl]

theorem crcRange_startCommand (s : State) (w : Word) : (s.startCommand w).crcRange = s.crcRange :=
  State.slice_startCommand s w .fb s.rangeStart s.rangeLength

theorem rangeError_startCommand (cfg : Config) (s : State) (w : Word) :
    rangeError cfg (s.startCommand w) = rangeError cfg s := rfl

theorem rangeError_of_inside (h : s.regNat .rs + s.regNat .rl ≤ 65553) : rangeError Config.hardware s = none := by
  rw [State.regNat_rs, State.regNat_rl] at h
  exact if_neg (Nat.not_lt.2 h)

theorem rangeError_of_outside (h : 65553 < s.regNat .rs + s.regNat .rl) :
    rangeError Config.hardware s = some ⟨.badRange, 21, s.regNat .rs + s.regNat .rl⟩ := by
  rw [State.regNat_rs, State.regNat_rl] at h ⊢
  exact if_pos h

/-- Both operands are 17 bits wide, so ERROFS holds their sum without wrap-around. -/
theorem rangeEnd_lt (s : State) : s.regNat .rs + s.regNat .rl < 2 ^ 32 := by
  rw [State.regNat_rs, State.regNat_rl]
  have := s.rng.rs.isLt
  have := s.rng.rl.isLt
  omega

end

/-! ## CRC8 -/

/-- Settles O19: inside FB the body is one update of CRC8R, and outside it raises before it has written anything. -/
theorem crc8WritesTheChecksumOfTheRange : Obligations.Crc8WritesTheChecksumOfTheRange := by
  refine fun s => ⟨fun hin => ?_, fun hout => ?_⟩
  · have hbody : crc8Command Config.hardware (s.startCommand 1) =
        ((s.startCommand 1).setCrc8r (crc8 Config.hardware s.crcRange), none) := by
      rw [crc8Command_ok ((rangeError_startCommand _ s 1).trans (rangeError_of_inside hin)), crcRange_startCommand]
    obtain ⟨hrun, hok, hframe⟩ := runCommand_updates (update_setCrc8r _ (List.Subset.refl _)) (by decide) hbody
    rw [← crcRange_eq_slice]
    exact ⟨_, hrun, hok, rfl, hframe⟩
  · exact runCommand_raises
      (crc8Command_error ((rangeError_startCommand _ s 1).trans (rangeError_of_outside hout)))
      (show 21 < 256 by decide) (rangeEnd_lt s)

end Sys2Proof.Machine
end

section
/-! PROOFS. The CRC-8 generator on byte sequences (43_crc8.md R84, R85): one byte is one look-up in T8, the look-up is
linear, and so a byte is cancelled by its own table entry in the next place. -/

namespace Sys2Proof.Machine

/-! ## One byte, and a sequence -/

theorem crc8Byte_eq_table {cfg : Config} (h : cfg.crc8Reflect = false) (c b : Byte) :
    crc8Byte cfg c b = crc8Table cfg (c ^^^ b) := by
  simp only [crc8Byte, crc8Table, reflectIf, h, Bool.false_eq_true, if_false]

/-- Settles O21: the byte enters the register as it is, so the eight shifts are those of the table. -/
theorem crc8ByteIsATableLookup : Obligations.Crc8ByteIsATableLookup := fun _ c b h => crc8Byte_eq_table h c b

theorem crc8Table_xor (cfg : Config) (a b : Byte) :
    crc8Table cfg (a ^^^ b) = crc8Table cfg a ^^^ crc8Table cfg b := crcShifts_xor cfg.crc8Poly 8 a b

theorem crc8_eq_loop {cfg : Config} (h : cfg.crc8Reflect = false) (s : List Byte) :
    crc8 cfg s = crc8Loop cfg cfg.crc8Init s ^^^ cfg.crc8Xorout := by
  simp only [crc8, reflectIf, h, Bool.false_eq_true, if_false]

theorem crc8Loop_append (cfg : Config) (c : Byte) (s t : List Byte) :
    crc8Loop cfg c (s ++ t) = crc8Loop cfg (crc8Loop cfg c s) t := List.foldl_append

/-! ## Detection and collision -/

/-- Inverting a bit of a byte gives another byte. -/
theorem xor_bit_ne (b : Byte) {j : Nat} (hj : j < 8) : b ^^^ (1#8 <<< j) ≠ b := by
  intro h
  have hbit := congrArg (·.getLsbD j) h
  simp [hj] at hbit

theorem crc8_flipBit_ne {cfg : Config} (hp : cfg.crc8Poly.getLsbD 0 = true) {s : List Byte} {k j : Nat}
    (hk : k < s.length) (hj : j < 8) : crc8 cfg (flipBit s k j) ≠ crc8 cfg s :=
  crc8_set_ne hp hk (byteOfSeq_eq_getElem hk ▸ xor_bit_ne _ hj)

/-- A byte leaves its table entry in the register, which the same entry as the next byte takes out again. -/
theorem crc8Loop_cancel {cfg : Config} (h : cfg.crc8Reflect = false) (c b : Byte) :
    crc8Loop cfg c [b, crc8Table cfg b] = crc8Loop cfg c [0, 0] := by
  have hcancel : crc8Table cfg (c ^^^ b) ^^^ crc8Table cfg b = crc8Table cfg c := by
    rw [crc8Table_xor, BitVec.xor_assoc, BitVec.xor_self, BitVec.xor_zero]
  calc crc8Loop cfg c [b, crc8Table cfg b]
      = crc8Table cfg (crc8Table cfg (c ^^^ b) ^^^ crc8Table cfg b) := by
        simp only [crc8Loop, List.foldl_cons, List.foldl_nil, crc8Byte_eq_table h]
    _ = crc8Table cfg (crc8Table cfg c) := by rw [hcancel]
    _ = crc8Loop cfg c [0, 0] := by
        simp only [crc8Loop, List.foldl_cons, List.foldl_nil, crc8Byte_eq_table h, BitVec.ofNat_eq_ofNat,
          BitVec.xor_zero]

/-- Settles O23: the loop's equations, one differing byte that no later byte hides, and the sequences 00 00 and
01 T8[01], which collide. -/
theorem crc8DetectsSingleBitsAndCollides : Obligations.Crc8DetectsSingleBitsAndCollides := by
  refine ⟨fun cfg h => crc8_eq_loop h [], crc8Loop_append, fun cfg s k j hp hk hj => crc8_flipBit_ne hp hk hj,
    [1, crc8Table Config.hardware 1], [0, 0], rfl, fun h => ?_, ?_⟩
  · exact absurd (List.head_eq_of_cons_eq h) (by decide)
  · rw [crc8_eq_loop rfl, crc8_eq_loop rfl, crc8Loop_cancel rfl]

end Sys2Proof.Machine
end

section
/-! PROOFS. The command CRC16 (44_crc16.md R92), by the range test it shares with CRC8. -/

namespace Sys2Proof.Machine

/-- Settles O20: inside FB the body is one update of CRC16R, and outside it raises before it has written anything. -/
theorem crc16WritesTheChecksumOfTheRange : Obligations.Crc16WritesTheChecksumOfTheRange := by
  intro s
  constructor
  · intro hin
    have hrange : rangeError Config.hardware (s.startCommand 2) = none :=
      (rangeError_startCommand _ s 2).trans (rangeError_of_inside hin)
    obtain ⟨hrun, hok, hframe⟩ :=
      runCommand_updates (update_setCrc16r _ (List.Subset.refl _)) (by decide) (crc16Command_ok hrange)
    rw [crcRange_startCommand, crcRange_eq_slice] at hrun hok hframe
    exact ⟨_, hrun, hok, rfl, hframe⟩
  · intro hout
    have hrange := (rangeError_startCommand _ s 2).trans (rangeError_of_outside hout)
    exact runCommand_raises (crc16Command_error hrange) (show 21 < 256 by decide) (rangeEnd_lt s)

end Sys2Proof.Machine
end

section
/-! PROOFS. The CRC-16 generator on byte sequences (44_crc16.md R89, R90). The register splits into a high byte, which
meets the next byte and selects the table entry, and a low byte, which the eight shifts only move. -/

namespace Sys2Proof.Machine

/-! ## One byte -/

/-- While only zeros are shifted out, the polynomial never enters. -/
theorem crcShifts_eq_shiftLeft {n : Nat} (poly : BitVec n) {k : Nat} {c : BitVec n} (h : c.toNat * 2 ^ k < 2 ^ n) :
    crcShifts poly k c = c <<< k := by
  induction k generalizing c with
  | zero => exact (BitVec.shiftLeft_zero c).symm
  | succ k ih =>
    have hdouble : 2 * c.toNat * 2 ^ k < 2 ^ n := by rwa [Nat.pow_succ', ← Nat.mul_assoc, Nat.mul_comm c.toNat] at h
    have htop : 2 * c.toNat < 2 ^ n := (Nat.le_mul_of_pos_right _ (Nat.two_pow_pos k)).trans_lt hdouble
    have hmsb : c.msb = false := BitVec.msb_eq_false_iff_two_mul_lt.2 htop
    have hshift : crcShift poly c = c <<< 1 := by simp only [crcShift, hmsb, Bool.false_eq_true, if_false]
    have hval : (c <<< 1).toNat = 2 * c.toNat := by
      rw [BitVec.toNat_shiftLeft, Nat.shiftLeft_eq, Nat.pow_one, Nat.mul_comm, Nat.mod_eq_of_lt htop]
    rw [crcShifts, hshift, ih (by rwa [hval]), ← BitVec.shiftLeft_add, Nat.add_comm]

/-- The byte enters at the high byte of the register; the low byte stands apart. -/
theorem half_xor_byte_split (c : Half) (b : Byte) :
    c ^^^ (b.setWidth 16 <<< 8) =
      (c.setWidth 8).setWidth 16 ^^^ (((c >>> 8).setWidth 8 ^^^ b).setWidth 16 <<< 8) := by
  apply BitVec.eq_of_getLsbD_eq
  intro i hi
  by_cases hlow : i < 8
  · simp [hlow, hi]
  · have hsub : i - 8 < 8 := by omega
    have hadd : 8 + (i - 8) = i := by omega
    simp [hlow, hi, hsub, hadd]

theorem half_low_shiftLeft (c : Half) : ((c.setWidth 8).setWidth 16 : Half) <<< 8 = c <<< 8 := by
  apply BitVec.eq_of_toNat_eq
  simp only [BitVec.toNat_shiftLeft, BitVec.toNat_setWidth, Nat.shiftLeft_eq]
  omega

theorem half_low_lt (c : Half) : ((c.setWidth 8).setWidth 16 : Half).toNat * 2 ^ 8 < 2 ^ 16 := by
  have := (c.setWidth 8).isLt
  rw [BitVec.toNat_setWidth]
  omega

theorem crc16Byte_eq_table {cfg : Config} (h : cfg.crc16Reflect = false) (c : Half) (b : Byte) :
    crc16Byte cfg c b = (c <<< 8) ^^^ crc16Table cfg ((c >>> 8).setWidth 8 ^^^ b) := by
  calc crc16Byte cfg c b
      = crcShifts cfg.crc16Poly 8 (c ^^^ (b.setWidth 16 <<< 8)) := by
        simp only [crc16Byte, reflectIf, h, Bool.false_eq_true, if_false]
    _ = crcShifts cfg.crc16Poly 8 ((c.setWidth 8).setWidth 16) ^^^ crc16Table cfg ((c >>> 8).setWidth 8 ^^^ b) := by
        rw [half_xor_byte_split, crcShifts_xor, crc16Table]
    _ = (c <<< 8) ^^^ crc16Table cfg ((c >>> 8).setWidth 8 ^^^ b) := by
        rw [crcShifts_eq_shiftLeft _ (half_low_lt c), half_low_shiftLeft]

/-- Settles O22: shifting is linear, so the low byte is moved up while the high byte goes through the table. -/
theorem crc16ByteIsATableLookup : Obligations.Crc16ByteIsATableLookup := fun _ c b h => crc16Byte_eq_table h c b

/-! ## A sequence -/

theorem crc16_eq_loop {cfg : Config} (h : cfg.crc16Reflect = false) (s : List Byte) :
    crc16 cfg s = crc16Loop cfg cfg.crc16Init s ^^^ cfg.crc16Xorout := by
  simp only [crc16, reflectIf, h, Bool.false_eq_true, if_false]

theorem crc16Loop_append (cfg : Config) (c : Half) (s t : List Byte) :
    crc16Loop cfg c (s ++ t) = crc16Loop cfg (crc16Loop cfg c s) t := List.foldl_append

/-- Settles O24: the loop's equations, and one differing byte that no later byte hides. -/
theorem crc16DetectsSingleBytes : Obligations.Crc16DetectsSingleBytes := by
  refine ⟨fun cfg h => crc16_eq_loop h [], crc16Loop_append, fun cfg s k b hp hk hb => ?_⟩
  exact crc16_set_ne hp hk (byteOfSeq_eq_getElem hk ▸ hb)

end Sys2Proof.Machine
end

section
/-! PROOFS. The Packet Codec on values (45_packet_codec.md R94, R96): what the payload steps answer on a byte sequence
that is cut into header, payload and SFRCS, and that an encoded packet decodes to itself, whatever follows it. -/

namespace Sys2Proof.Machine

/-! ## The answers of `pkt_dec` -/

section
variable {cfg : Config} {s p : List Byte} {d : HeaderDecoded} {rx : Half} {need : Nat} {e : Err}

theorem pktDec_headerError (hd : hdrDec cfg s = .error e) : pktDec cfg s = .error e ∧ pktDecPhase cfg s = .start := by
  simp only [pktDec, pktDecPhase, hd, and_self]

theorem pktDec_short (hd : hdrDec cfg s = .ok d) (hp : decodePayload cfg s d.consumed d.header.fdl.toNat = .short e) :
    pktDec cfg s = .error e ∧ pktDecPhase cfg s = .headerParsed := by
  simp only [pktDec, pktDecPhase, hd, hp, and_self]

theorem pktDec_mismatch (hd : hdrDec cfg s = .ok d)
    (hp : decodePayload cfg s d.consumed d.header.fdl.toNat = .mismatch p rx e) :
    pktDec cfg s = .error e ∧ pktDecPhase cfg s = .checksumFailed := by
  simp only [pktDec, pktDecPhase, hd, hp, and_self]

theorem pktDec_valid (hd : hdrDec cfg s = .ok d)
    (hp : decodePayload cfg s d.consumed d.header.fdl.toNat = .valid p rx need) :
    pktDec cfg s = .ok { header := d.header, hcs := d.hcs, payload := p, consumed := need } ∧
      pktDecPhase cfg s = .checksumValidated := by
  simp only [pktDec, pktDecPhase, hd, hp, and_self]

end

/-! ## The payload steps on a sequence cut into its parts -/

section
variable {cfg : Config} {b p : List Byte}

theorem checksumBytes_of_pos (hp : 0 < p.length) :
    checksumBytes cfg p = [lowByte (crc16 cfg p), highByte (crc16 cfg p)] := if_pos hp

theorem take_drop_append (b p r : List Byte) : ((b ++ p ++ r).drop b.length).take p.length = p := by
  rw [List.append_assoc, List.drop_left, List.take_left]

/-- The two bytes after header and payload are the received SFRCS, low byte first (44_crc16.md R91). -/
theorem halfOfSeq_append (b p : List Byte) (lo hi : Byte) (r : List Byte) :
    halfOfSeq (b ++ p ++ lo :: hi :: r) (b.length + p.length) = halfOf lo hi := by
  rw [halfOfSeq, ← List.length_append, byteOfSeq_append_length, byteOfSeq_append_right (Nat.le_add_right _ 1),
    Nat.add_sub_cancel_left]
  rfl

/-- The payload steps compare the CRC-16 of the payload with the two bytes that follow it (45_packet_codec.md R96). -/
theorem decodePayload_append (hp : 0 < p.length) (lo hi : Byte) (r : List Byte) :
    decodePayload cfg (b ++ p ++ lo :: hi :: r) b.length p.length =
      if crc16 cfg p ≠ halfOf lo hi then
        .mismatch p (halfOf lo hi) ⟨.payloadChecksumMismatch, regNum .sfrcs, b.length + p.length⟩
      else .valid p (halfOf lo hi) (frameLen b.length p.length) := by
  have hneed : ¬(b ++ p ++ lo :: hi :: r).length < frameLen b.length p.length := by
    rw [frameLen, if_pos hp, List.length_append, List.length_append, List.length_cons, List.length_cons]
    omega
  simp only [decodePayload, if_neg hneed, if_neg hp.ne', take_drop_append, halfOfSeq_append]

/-- Without a payload there is nothing to compare (45_packet_codec.md R96). -/
theorem decodePayload_empty {s : List Byte} {hl : Nat} (h : frameLen hl 0 ≤ s.length) :
    decodePayload cfg s hl 0 = .valid [] 0 (frameLen hl 0) := by
  simp only [decodePayload, if_neg h.not_gt, if_true]

/-- The payload steps accept what `pkt_enc` puts after a header, whatever follows it. -/
theorem decodePayload_payloadPart (cfg : Config) (b p t : List Byte) :
    decodePayload cfg (b ++ payloadPart cfg p ++ t) b.length p.length =
      .valid p (checksumRegister cfg p) (frameLen b.length p.length) := by
  rcases p.length.eq_zero_or_pos with h0 | hp
  · obtain rfl := List.eq_nil_of_length_eq_zero h0
    refine decodePayload_empty ?_
    rw [List.length_append, length_append_payloadPart]
    exact Nat.le_add_right _ _
  · rw [payloadPart, checksumBytes_of_pos hp, ← List.append_assoc, List.append_assoc]
    simp only [List.cons_append, List.nil_append]
    rw [decodePayload_append hp, halfOf_low_high, if_neg (not_not.2 rfl), checksumRegister, if_pos hp]

end

/-! ## The round trip -/

section
variable {cfg : Config} {h : Header} {b p : List Byte}

theorem visible_withLength_fdl {n : Nat} (hn : n ≤ 65535) : (h.withLength n).visible.fdl.toNat = n := by
  rw [visible_eq]
  exact (BitVec.toNat_ofNat ..).trans (Nat.mod_eq_of_lt (Nat.lt_succ_of_le hn))

/-- A frame whose header was encoded for `n` payload bytes: the header decodes, and the payload steps look for `n`
bytes after it. -/
theorem hdrDec_of_packetHeader (hc : cfg.legal) {n : Nat} (hn : n ≤ 65535)
    (hb : hdrEnc cfg (h.withLength n) = .ok b) (r : List Byte) :
    ∃ d, hdrDec cfg (b ++ r) = .ok d ∧ d.header = (h.withLength n).visible ∧ d.consumed = b.length ∧
      d.header.fdl.toNat = n :=
  ⟨_, hdrDec_of_hdrEnc hc hb r, rfl, rfl, visible_withLength_fdl hn⟩

/-- 45_packet_codec.md R100: an encoded packet decodes to itself, whatever follows it. -/
theorem pktDec_of_pktEnc (hc : cfg.legal) (hp : p.length ≤ 65535) (hb : hdrEnc cfg (h.withLength p.length) = .ok b)
    (t : List Byte) :
    ∃ d, pktDec cfg (b ++ payloadPart cfg p ++ t) = .ok d ∧ d.header = (h.withLength p.length).visible ∧
      d.payload = p ∧ d.consumed = frameLen b.length p.length ∧
      pktDecPhase cfg (b ++ payloadPart cfg p ++ t) = .checksumValidated := by
  obtain ⟨d, hd, hheader, hconsumed, hfdl⟩ := hdrDec_of_packetHeader hc hp hb (payloadPart cfg p ++ t)
  rw [← List.append_assoc] at hd
  obtain ⟨hdec, hphase⟩ := pktDec_valid hd (by rw [hconsumed, hfdl, decodePayload_payloadPart])
  exact ⟨_, hdec, hheader, rfl, rfl, hphase⟩

/-- The frame of `pkt_enc` is the header followed by the payload part, of the length 30_encoding.md R59 says. -/
theorem pktEnc_eq_ok_iff {f : List Byte} :
    pktEnc cfg h p = .ok f ↔ ∃ b, hdrEnc cfg (h.withLength p.length) = .ok b ∧ f = b ++ payloadPart cfg p := by
  simp only [pktEnc_ok_iff, payloadPart, List.append_assoc]

end

end Sys2Proof.Machine
end

section
/-! PROOFS. Corruption (45_packet_codec.md R102): a changed byte of the header span breaks its agreement with HCS, a
changed HL is no length its RTE bit implies, and a changed byte after the header breaks the agreement of the payload
with SFRCS. -/

namespace Sys2Proof.Machine

/-! ## A changed byte of the header span -/

section
variable {cfg : Config} {s : List Byte} {k : Nat} {v : Byte}

/-- Step 4 of 41_header_codec.md R70. -/
theorem decodeError_of_checksum_ne (h4 : 4 ≤ s.length) (h0 : (byteOfSeq s 3).toNat ≠ 0)
    (hspan : (byteOfSeq s 3).toNat ≤ s.length)
    (hcrc : crc8 cfg (s.take ((byteOfSeq s 3).toNat - 1)) ≠ byteOfSeq s ((byteOfSeq s 3).toNat - 1)) :
    decodeError cfg s = some ⟨.checksumMismatch, regNum .hcs, (byteOfSeq s 3).toNat - 1⟩ := by
  simp only [decodeError, if_neg h4.not_gt, if_neg h0, if_neg hspan.not_gt, if_pos hcrc]

/-- A changed byte of the header span, HL apart, breaks the agreement of HCS with the bytes before it. -/
theorem decodeError_set_of_ne_hl (hp : cfg.crc8Poly.getLsbD 0 = true) (hs : decodeError cfg s = none)
    (hk : k < (byteOfSeq s 3).toNat) (h3 : k ≠ 3) (hv : v ≠ byteOfSeq s k) :
    decodeError cfg (s.set k v) = some ⟨.checksumMismatch, regNum .hcs, (byteOfSeq s 3).toNat - 1⟩ := by
  obtain ⟨h4, h0, hspan, hcrc, -⟩ := decodeError_eq_none.1 hs
  have hks : k < s.length := hk.trans_le hspan
  have hhl : byteOfSeq (s.set k v) 3 = byteOfSeq s 3 := by rw [byteOfSeq_set hks, if_neg h3]
  rw [← hhl] at h0 hspan ⊢
  refine decodeError_of_checksum_ne (by rwa [List.length_set]) h0 (by rwa [List.length_set]) ?_
  rw [hhl, byteOfSeq_set hks]
  by_cases hlast : k = (byteOfSeq s 3).toNat - 1
  · rw [if_pos hlast, List.take_set_of_le hlast.ge, hcrc, ← hlast]
    exact hv.symm
  · have hlt : k < (s.take ((byteOfSeq s 3).toNat - 1)).length := by
      rw [hhl] at hspan
      rw [List.length_take]
      omega
    rw [if_neg hlast, List.take_set, ← hcrc]
    refine crc8_set_ne hp hlt ?_
    rwa [List.getElem_take, ← byteOfSeq_eq_getElem hks]

/-- A changed HL: no span, a cut span, a span whose last byte is not its checksum, or, when the CRC-8 collides, a length
that the RTE bit does not imply. -/
theorem decodeError_set_hl (hs : decodeError cfg s = none) (hv : v ≠ byteOfSeq s 3) :
    (v.toNat = 0 ∧ decodeError cfg (s.set 3 v) = some ⟨.checksumMismatch, regNum .hl, 3⟩) ∨
    (s.length < v.toNat ∧ decodeError cfg (s.set 3 v) = some ⟨.truncated, headerRegion, v.toNat⟩) ∨
    decodeError cfg (s.set 3 v) = some ⟨.checksumMismatch, regNum .hcs, v.toNat - 1⟩ ∨
    (crc8 cfg ((s.set 3 v).take (v.toNat - 1)) = byteOfSeq (s.set 3 v) (v.toNat - 1) ∧
      decodeError cfg (s.set 3 v) = some ⟨.invalidField, regNum .hl, 3⟩) := by
  obtain ⟨h4, -, -, -, hprv, hprf, himp⟩ := decodeError_eq_none.1 hs
  have hlen : v.toNat ≠ impliedLength cfg (flagRte (byteOfSeq s 2)) := fun h =>
    hv (BitVec.eq_of_toNat_eq (h.trans himp.symm))
  have hbyte := fun i => byteOfSeq_set (i := i) (v := v) (show 3 < s.length from h4)
  have h0 : byteOfSeq (s.set 3 v) 0 = byteOfSeq s 0 := by rw [hbyte, if_neg (by decide)]
  have h2 : byteOfSeq (s.set 3 v) 2 = byteOfSeq s 2 := by rw [hbyte, if_neg (by decide)]
  have h3 : byteOfSeq (s.set 3 v) 3 = v := by rw [hbyte, if_pos rfl]
  simp only [decodeError, List.length_set, if_neg h4.not_gt, h0, h2, h3, not_not.2 hprv, not_not.2 hprf, if_false,
    if_pos hlen]
  by_cases hz : v.toNat = 0
  · exact .inl ⟨hz, if_pos hz⟩
  · rw [if_neg hz]
    by_cases hspan : s.length < v.toNat
    · exact .inr (.inl ⟨hspan, if_pos hspan⟩)
    · rw [if_neg hspan]
      by_cases hcrc : crc8 cfg ((s.set 3 v).take (v.toNat - 1)) = byteOfSeq (s.set 3 v) (v.toNat - 1)
      · exact .inr (.inr (.inr ⟨hcrc, if_neg (not_not.2 hcrc)⟩))
      · exact .inr (.inr (.inl (if_pos hcrc)))

end

/-! ## A changed byte after the header -/

section
variable {cfg : Config} {h : Header} {b p : List Byte} {k : Nat} {v : Byte}

/-- A frame whose payload and received SFRCS disagree fails at SFRCS (45_packet_codec.md R96). -/
theorem pktDec_of_checksum_ne (hc : cfg.legal) (hlen : p.length ≤ 65535) (hp : 0 < p.length)
    (hb : hdrEnc cfg (h.withLength p.length) = .ok b) {lo hi : Byte} (hcrc : crc16 cfg p ≠ halfOf lo hi) :
    pktDec cfg (b ++ p ++ [lo, hi]) = .error ⟨.payloadChecksumMismatch, regNum .sfrcs, b.length + p.length⟩ := by
  obtain ⟨d, hd, -, hconsumed, hfdl⟩ := hdrDec_of_packetHeader hc hlen hb (p ++ [lo, hi])
  rw [← List.append_assoc] at hd
  exact (pktDec_mismatch hd (by rw [hconsumed, hfdl, decodePayload_append hp, if_pos hcrc])).1

theorem halfOf_inj {lo hi lo' hi' : Byte} (heq : halfOf lo hi = halfOf lo' hi') : lo = lo' ∧ hi = hi' :=
  ⟨by rw [← lowByte_halfOf lo hi, heq, lowByte_halfOf], by rw [← highByte_halfOf lo hi, heq, highByte_halfOf]⟩

/-- One changed payload byte. -/
theorem pktDec_set_payload (hc : cfg.legal) (hpoly : cfg.crc16Poly.getLsbD 0 = true) (hlen : p.length ≤ 65535)
    (hb : hdrEnc cfg (h.withLength p.length) = .ok b) (hk : k < p.length) (hv : v ≠ byteOfSeq p k) :
    pktDec cfg ((b ++ payloadPart cfg p).set (b.length + k) v) =
      .error ⟨.payloadChecksumMismatch, regNum .sfrcs, b.length + p.length⟩ := by
  have hset : (b ++ payloadPart cfg p).set (b.length + k) v =
      b ++ p.set k v ++ [lowByte (crc16 cfg p), highByte (crc16 cfg p)] := by
    rw [payloadPart, checksumBytes_of_pos (by omega), List.set_append_right _ _ (Nat.le_add_right _ _),
      Nat.add_sub_cancel_left, List.set_append_left _ _ hk, List.append_assoc]
  have hcrc : crc16 cfg (p.set k v) ≠ crc16 cfg p := crc16_set_ne hpoly hk (byteOfSeq_eq_getElem hk ▸ hv)
  rw [← List.length_set (as := p) (i := k) (a := v)] at hlen hb ⊢
  rw [hset]
  exact pktDec_of_checksum_ne hc hlen (by rw [List.length_set]; omega) hb (by rwa [halfOf_low_high])

/-- One changed byte of SFRCS. -/
theorem pktDec_set_checksum (hc : cfg.legal) (hlen : p.length ≤ 65535) (hp : 0 < p.length)
    (hb : hdrEnc cfg (h.withLength p.length) = .ok b) (hk : k < 2)
    (hv : v ≠ byteOfSeq (b ++ payloadPart cfg p) (b.length + p.length + k)) :
    pktDec cfg ((b ++ payloadPart cfg p).set (b.length + p.length + k) v) =
      .error ⟨.payloadChecksumMismatch, regNum .sfrcs, b.length + p.length⟩ := by
  have hcrc := (halfOf_low_high (crc16 cfg p)).symm
  rw [payloadPart, checksumBytes_of_pos hp, ← List.append_assoc] at hv ⊢
  rw [← List.length_append] at hv ⊢
  rw [byteOfSeq_append_right (Nat.le_add_right _ _), Nat.add_sub_cancel_left] at hv
  rw [List.set_append_right _ _ (Nat.le_add_right _ _), Nat.add_sub_cancel_left, List.length_append]
  obtain rfl | rfl : k = 0 ∨ k = 1 := by omega
  · refine pktDec_of_checksum_ne hc hlen hp hb fun heq => hv ?_
    exact (halfOf_inj (hcrc.symm.trans heq)).1.symm
  · refine pktDec_of_checksum_ne hc hlen hp hb fun heq => hv ?_
    exact (halfOf_inj (hcrc.symm.trans heq)).2.symm

end

/-! ## The obligation -/

/-- Settles O47: a header error by steps 1 to 7 of the header decoder, one after the header by the payload steps. -/
theorem corruptionIsDetected : Obligations.CorruptionIsDetected := by
  intro cfg h p b hc hpoly8 hpoly16 hlen henc
  obtain ⟨a, ha, rfl⟩ := pktEnc_eq_ok_iff.1 henc
  obtain ⟨d, hd, -, hconsumed, -⟩ := hdrDec_of_packetHeader hc hlen ha (payloadPart cfg p)
  obtain ⟨hgood, rfl⟩ := hdrDec_ok_iff.1 hd
  obtain ⟨halen, hhl⟩ := hdrEnc_length hc ha
  replace halen : a.length = h.hl.toNat := halen
  replace hhl : h.hl.toNat = 11 ∨ h.hl.toNat = 16 := hhl
  have hhl3 : (byteOfSeq (a ++ payloadPart cfg p) 3).toNat = h.hl.toNat := hconsumed.trans halen
  have hheader : ∀ k j, k < h.hl.toNat → k ≠ 3 → j < 8 → pktDec cfg (flipBit (a ++ payloadPart cfg p) k j) =
      .error ⟨.checksumMismatch, 15, h.hl.toNat - 1⟩ := fun k j hk h3 hj => by
    rw [← hhl3] at hk ⊢
    exact (pktDec_headerError (hdrDec_error_iff.2 (decodeError_set_of_ne_hl hpoly8 hgood hk h3 (xor_bit_ne _ hj)))).1
  have h3 : 3 < (a ++ payloadPart cfg p).length := by rw [List.length_append]; omega
  refine ⟨fun k j hk => hheader k j (by omega), fun j hj => ?_, fun j hj => hheader _ j (by omega) (by omega) hj, ?_,
    ?_⟩
  · rw [flipBit, byteOfSeq_set h3, if_pos rfl]
    rcases decodeError_set_hl hgood (xor_bit_ne _ hj) with ⟨-, he⟩ | ⟨hcut, he⟩ | he | ⟨hcrc, he⟩
    all_goals refine ⟨_, (pktDec_headerError (hdrDec_error_iff.2 he)).1, ?_⟩
    · exact .inl rfl
    · exact .inr (.inl ⟨rfl, hcut⟩)
    · exact .inl rfl
    · exact .inr (.inr ⟨rfl, hcrc⟩)
  · rw [← halen]
    exact fun k v hk hv => pktDec_set_payload hc hpoly16 hlen ha hk hv
  · rw [← halen]
    exact fun k j hp hk hj => pktDec_set_checksum hc hlen hp ha hk (xor_bit_ne _ hj)

end Sys2Proof.Machine
end

section
/-! PROOFS. PKTENC on the state (45_packet_codec.md R95): it leaves in FB the frame of `pkt_enc`, the header in the wire
format first, and in FLEN its length. -/

namespace Sys2Proof.Machine

/-! ## Commands as updates -/

/-- A command whose body is one update: the whole command is one, of the report too. -/
theorem Update.command {f : State → State} {regs : List Reg} {hi : Buf → Nat} (hf : Update f regs hi) (w : Word)
    (o : Option Err) : Update (fun s => (f (s.startCommand w)).complete o) (regs ++ reportRegs) hi :=
  (update_complete o (List.subset_append_right _ _)).comp <|
    (hf.mono (List.subset_append_left _ _) fun _ => le_rfl).comp (update_startCommand w (List.subset_append_right _ _))

/-- An error leaves ERRCODE other than 0 (60_exceptions.md R107). -/
theorem errcode_ne_zero {w : Word} {e : Err} {t : State} (h : reportsError w e.code.num.toNat e.field e.ofs t) :
    t.reg .errcode ≠ 0 := by
  obtain ⟨-, -, hcode, -⟩ := h
  intro h0
  rw [h0] at hcode
  exact (errCode_num e.code).1 (BitVec.eq_of_toNat_eq hcode.symm)

/-! ## The bytes PKTENC leaves -/

theorem payload_eq_slice (s : State) : s.payload = s.slice .pb 0 (s.regNat .plen) := by
  rw [State.payload, State.regNat_plen]
  rfl

theorem byteOfSeq_payload {s : State} {i : Nat} (hi : i < s.regNat .plen) : byteOfSeq s.payload i = s.byteAt .pb i := by
  rw [payload_eq_slice, byteOfSeq_slice _ _ _ _ _ hi, Nat.zero_add]

section
variable {b p : List Byte}

theorem byteAt_writeFrame (b p : List Byte) (s : State) (a : Nat) :
    (writeFrame b p s).byteAt .fb a =
      if a < frameLen b.length p.length then byteOfSeq (b ++ payloadPart Config.hardware p) a else s.byteAt .fb a := by
  simp only [writeFrame, State.byteAt_setFlen, State.byteAt_setHcs, State.byteAt_setFlags, State.byteAt_setSfrcs,
    State.byteAt_setFdl, State.byteAt_store, length_append_payloadPart, Nat.zero_le, true_and, Nat.zero_add,
    Nat.sub_zero, byteOfSeq]

theorem startsWith_writeFrame (b p : List Byte) (s : State) :
    startsWith (writeFrame b p s).finish (b ++ payloadPart Config.hardware p) := fun a ha => by
  rw [length_append_payloadPart] at ha
  rw [State.byteAt_finish, byteAt_writeFrame, if_pos ha]

/-- FB holds the frame PKTENC wrote, and FLEN its length. -/
theorem frame_writeFrame (h : frameLen b.length p.length ≤ 65553) (s : State) :
    (writeFrame b p s).finish.frame = b ++ payloadPart Config.hardware p := by
  have hflen : (writeFrame b p s).finish.frameLength = (b ++ payloadPart Config.hardware p).length :=
    (State.regNat_flen _).symm.trans ((writeFrame_flen s h).trans (length_append_payloadPart _ _ _).symm)
  rw [State.frame, hflen, slice_of_startsWith (startsWith_writeFrame b p s) le_rfl, List.take_length]

theorem startsWith_left {t : State} {r : List Byte} (h : startsWith t (b ++ r)) : startsWith t b := fun a ha => by
  rw [h a (by rw [List.length_append]; omega), byteOfSeq_append_left ha]

/-- A 16-bit field of FB is that of the bytes FB starts with. -/
theorem fbHalf_of_startsWith {t : State} (h : startsWith t b) {i : Nat} (hi : i + 1 < b.length) :
    t.fbHalf i = (halfOfSeq b i).toNat := by
  rw [halfOfSeq_toNat, State.fbHalf, State.fbNat, State.fbNat, h i (by omega), h (i + 1) hi]

/-- After the header FB holds the payload. -/
theorem byteAt_of_startsWith_payload {t : State} (h : startsWith t (b ++ payloadPart Config.hardware p)) {i : Nat}
    (hi : i < p.length) : t.byteAt .fb (b.length + i) = byteOfSeq p i := by
  rw [h _ (by rw [length_append_payloadPart, frameLen]; omega), byteOfSeq_append_right (Nat.le_add_right _ _),
    Nat.add_sub_cancel_left, payloadPart, byteOfSeq_append_left hi]

/-- After the payload FB holds its checksum (44_crc16.md R91). -/
theorem fbHalf_of_startsWith_checksum {t : State} (h : startsWith t (b ++ payloadPart Config.hardware p))
    (hp : 0 < p.length) : t.fbHalf (b.length + p.length) = (crc16 Config.hardware p).toNat := by
  have hlen : b.length + p.length + 1 < (b ++ payloadPart Config.hardware p).length := by
    rw [length_append_payloadPart, frameLen, if_pos hp]; omega
  rw [fbHalf_of_startsWith h hlen, payloadPart, checksumBytes_of_pos hp, ← List.append_assoc, halfOfSeq_append,
    halfOf_low_high]

end

/-! ## How PKTENC ends -/

section
variable {s t : State} {b : List Byte}

/-- What PKTENC leaves of a state whose header is encoded as `b`. -/
def frameWritten (b : List Byte) (s : State) : State :=
  (writeFrame b s.payload (s.startCommand (encode .pktenc))).finish

theorem exec_pktenc_ok (hb : hdrEnc Config.hardware (s.header.withLength s.payload.length) = .ok b) :
    exec .pktenc s = .next (frameWritten b s) ∧ frameLen b.length s.payload.length ≤ 65553 := by
  rw [payload_length] at hb
  obtain ⟨hrun, hle⟩ := pktencCommand_hardware_ok (s := s.startCommand (encode .pktenc)) hb
  rw [payload_startCommand] at hrun hle
  exact ⟨runCommand_ok hrun, hle⟩

theorem exec_pktenc_error {e : Err} (he : hdrEnc Config.hardware (s.header.withLength s.payload.length) = .error e) :
    ∃ t, exec .pktenc s = .next t ∧ reportsError 0x20 e.code.num.toNat e.field e.ofs t := by
  have hcheck := hdrEnc_error_inv he
  have hheader : encodeError Config.hardware s.header = some e := hcheck
  obtain ⟨t, ht, herr, -⟩ := encoder_raises (.inr rfl) hheader
  exact ⟨t, ht, herr⟩

/-- A PKTENC that reports no error has encoded its operands. -/
theorem exec_pktenc_inv (ht : exec .pktenc s = .next t) (hcode : t.reg .errcode = 0) :
    ∃ b, hdrEnc Config.hardware (s.header.withLength s.payload.length) = .ok b ∧ t = frameWritten b s := by
  cases hb : hdrEnc Config.hardware (s.header.withLength s.payload.length) with
  | error e =>
    obtain ⟨u, hu, herr⟩ := exec_pktenc_error hb
    rw [ht] at hu
    cases hu
    exact absurd hcode (errcode_ne_zero herr)
  | ok b =>
    rw [(exec_pktenc_ok hb).1] at ht
    cases ht
    exact ⟨b, rfl, rfl⟩

/-- FLEN is the frame length of HL and PLEN (45_packet_codec.md R101). -/
theorem frameWritten_flen (hb : hdrEnc Config.hardware (s.header.withLength s.payload.length) = .ok b) :
    (frameWritten b s).regNat .flen = frameLen (s.regNat .hl) (s.regNat .plen) := by
  obtain ⟨hlen, -⟩ := hdrEnc_length hardware_legal hb
  have hflen := writeFrame_flen (s.startCommand (encode .pktenc)) (exec_pktenc_ok hb).2
  rw [hlen, payload_length] at hflen
  rw [State.regNat_hl, State.regNat_plen]
  exact hflen

/-- PKTENC writes FDL, HCS, SFRCS and FLAGS among registers 0 to 17 (45_packet_codec.md R95). -/
theorem frameWritten_hdr (b : List Byte) (s : State) :
    (frameWritten b s).hdr = { s.hdr with
      fdl := BitVec.ofNat 16 s.payload.length
      hcs := byteOfSeq b (b.length - 1)
      sfrcs := checksumRegister Config.hardware s.payload
      flags := byteOfSeq b 2 } := rfl

theorem frameWritten_plen (b : List Byte) (s : State) : (frameWritten b s).rng.plen = s.rng.plen := by
  simp [frameWritten, writeFrame]

/-- PLEN is a 16-bit count. -/
theorem ofNat_payload_length (s : State) : BitVec.ofNat 16 s.payload.length = s.rng.plen := by
  rw [payload_length, BitVec.ofNat_toNat, BitVec.setWidth_eq]

end

/-! ## The obligations -/

/-- Settles O40: PKTENC encodes the header that `pkt_enc` does, and stores its frame. -/
theorem pktencRefinesPktEnc : Obligations.PktencRefinesPktEnc := by
  intro s
  cases hb : hdrEnc Config.hardware (s.header.withLength s.payload.length) with
  | error e =>
    obtain ⟨t, ht, herr⟩ := exec_pktenc_error hb
    refine ⟨t, ht, fun e' he => ?_, fun f hf => ?_⟩
    · rw [pktEnc_error_iff, hb] at he
      cases he
      exact herr
    · obtain ⟨b, hb', -⟩ := pktEnc_ok_iff.1 hf
      rw [hb] at hb'
      cases hb'
  | ok b =>
    obtain ⟨ht, hle⟩ := exec_pktenc_ok hb
    obtain ⟨hlen, -⟩ := hdrEnc_length hardware_legal hb
    refine ⟨_, ht, fun e he => ?_, fun f hf => ?_⟩
    · rw [pktEnc_error_iff, hb] at he
      cases he
    · obtain ⟨b', hb', rfl⟩ := pktEnc_eq_ok_iff.1 hf
      rw [hb] at hb'
      cases hb'
      refine ⟨reportsOk_finish rfl, frame_writeFrame hle _, ?_⟩
      rw [length_append_payloadPart, hlen, payload_length, State.regNat_hl, State.regNat_plen]
      rfl

/-- Settles O39: FB starts with the frame, and FDL, SFRCS, FLAGS, HCS and FLEN follow from its parts. -/
theorem pktencWritesTheFrame : Obligations.PktencWritesTheFrame := by
  intro s hs
  obtain ⟨b, hb⟩ : ∃ b, hdrEnc Config.hardware (s.header.withLength s.payload.length) = .ok b :=
    ⟨_, hdrEnc_of_encodable (encodeError_of_encodable hs _)⟩
  obtain ⟨hrun, hle⟩ := exec_pktenc_ok hb
  obtain ⟨hlen, hhl⟩ := hdrEnc_length hardware_legal hb
  replace hlen : b.length = s.regNat .hl := hlen.trans (State.regNat_hl s).symm
  have hplen : s.payload.length = s.regNat .plen := (payload_length s).trans (State.regNat_plen s).symm
  have hflen := frameWritten_flen hb
  have hsfrcs : (frameWritten b s).regNat .sfrcs = (checksumRegister Config.hardware s.payload).toNat := by
    rw [State.regNat_sfrcs, frameWritten_hdr]
  have hstart : startsWith (frameWritten b s) (b ++ payloadPart Config.hardware s.payload) :=
    startsWith_writeFrame _ _ _
  have hat := headerAt_of_startsWith (by rw [payload_length]; exact s.rng.plen.isLt) hb (startsWith_left hstart)
  have ⟨⟨_, _, hflags, _⟩, _⟩ := hat
  have hup : Update _ _ fun buf => if buf = .fb then frameLen b.length s.payload.length else 0 :=
    (update_writeFrame (b := b) (p := s.payload) (by rfl)).command (encode .pktenc) none
  rw [hplen, ← State.regNat_hl] at hat
  refine ⟨_, hrun, reportsOk_finish rfl, hat, fun i hi => ?_, fun hp => ⟨?_, ?_, ?_⟩, fun h0 => ⟨?_, ?_⟩, ?_, ?_,
    ?_, hup.sameRegsExcept s, ?_, ?_, hup.host s⟩
  · rw [← hlen, byteAt_of_startsWith_payload hstart (hi.trans_eq hplen.symm), byteOfSeq_payload hi]
  · rw [hsfrcs, checksumRegister, if_pos (hp.trans_eq hplen.symm), payload_eq_slice]
  · rw [hsfrcs, checksumRegister, if_pos (hp.trans_eq hplen.symm), ← hlen, ← hplen,
      fbHalf_of_startsWith_checksum hstart (hp.trans_eq hplen.symm)]
  · rw [hflen, frameLen, if_pos hp]
  · rw [hsfrcs, checksumRegister, if_neg (by omega)]
    rfl
  · rw [hflen, frameLen, h0, if_neg (Nat.lt_irrefl 0), Nat.add_zero]
  · rw [State.regNat_fdl, frameWritten_hdr, ofNat_payload_length, State.regNat_plen]
  · rw [State.regNat_flags, frameWritten_hdr, ← hflags, State.fbNat, startsWith_left hstart 2 (by omega)]
  · rw [State.regNat_hcs, frameWritten_hdr, State.fbNat, ← hlen, startsWith_left hstart _ (by omega)]
  · rw [hflen, ← hplen, ← hlen]
    exact hup.sameOutside s .fb
  · exact sameBuffer_of_sameOutside (hup.sameOutside s .pb) rfl

end Sys2Proof.Machine
end

section
/-! PROOFS. PKTDEC on the state (45_packet_codec.md R97, R98): once the header is decoded it ends as the payload steps
of `pkt_dec` do, and keeps what each completed phase wrote. -/

namespace Sys2Proof.Machine

/-- A 17-bit count holds every frame length (10_state.md R22). -/
theorem count_toNat {n : Nat} (hn : n ≤ 65553) : (BitVec.ofNat 17 n).toNat = n :=
  (BitVec.toNat_ofNat ..).trans (Nat.mod_eq_of_lt (by omega))

/-! ## What PKTDEC loads -/

/-- What PKTDEC writes when the payload has been read: the header, the payload `p`, the received SFRCS, and the phase
in which the decoder ends (45_packet_codec.md R97). -/
def loadPacket (d : HeaderDecoded) (flags : Byte) (p : List Byte) (rx : Half) (ph : Phase) (n : Nat) (s : State) :
    State :=
  (commitPayload (writeHeader d flags s) p rx).setPhase ph n

section
variable (d : HeaderDecoded) (flags : Byte) (p : List Byte) (rx : Half) (ph : Phase) (n : Nat) (s : State)

theorem update_loadPacket {hi : Buf → Nat} (hp : p.length ≤ hi .pb) :
    Update (loadPacket d flags p rx ph n) (writtenRegs .pktdec) hi :=
  (update_setPhase _ _ (by decide)).comp <|
    (update_commitPayload hp).comp (update_writeHeader _ (by decide) (by decide))

theorem byteAt_pb_loadPacket (a : Nat) :
    (loadPacket d flags p rx ph n s).byteAt .pb a = if a < p.length then byteOfSeq p a else s.byteAt .pb a := by
  rw [loadPacket, commitPayload, State.byteAt_setPhase, State.byteAt_setSfrcs, State.byteAt_setPlen,
    State.byteAt_store, byteAt_writeHeader]
  simp only [Nat.zero_le, true_and, Nat.zero_add, Nat.sub_zero, byteOfSeq]

theorem loadPacket_plen : (loadPacket d flags p rx ph n s).rng.plen = BitVec.ofNat 16 p.length := by
  simp [loadPacket, commitPayload]

/-- PB holds the payload, and PLEN its length. -/
theorem payload_loadPacket {p : List Byte} (hp : p.length ≤ 65535) :
    (loadPacket d flags p rx ph n s).payload = p := by
  have hlen : (loadPacket d flags p rx ph n s).payloadLength = p.length := by
    rw [State.payloadLength, loadPacket_plen, BitVec.toNat_ofNat, Nat.mod_eq_of_lt (by omega)]
  rw [State.payload, hlen, loadPacket, commitPayload, State.slice_setPhase, State.slice_setSfrcs, State.slice_setPlen,
    State.slice_store]

theorem payload_finish : s.finish.payload = s.payload := State.slice_finish s _ _ _

end

/-! ## How PKTDEC ends -/

section
variable {s : State} {d : HeaderDecoded} {p : List Byte} {rx : Half} {need : Nat} {e : Err}

/-- PKTDEC of a decodable header is the header's commit and the outcome of the payload steps. -/
theorem pktdecCommand_startCommand (hflen : s.regNat .flen ≤ 65553) (hd : hdrDec Config.hardware s.frame = .ok d)
    (w : Word) :
    pktdecCommand Config.hardware (s.startCommand w) = payloadOutcome d.consumed d.header.fdl.toNat
      (decodePayload Config.hardware s.frame d.consumed d.header.fdl.toNat)
      (writeHeader d (s.byteAt .fb 2) (s.startCommand w)) := by
  rw [pktdecCommand_decoded (s := s.startCommand w) (frameLengthError_of_le hflen) (by rwa [frame_startCommand]),
    frame_startCommand, State.byteAt_startCommand]

theorem exec_pktdec_short (hflen : s.regNat .flen ≤ 65553) (hd : hdrDec Config.hardware s.frame = .ok d)
    (hp : decodePayload Config.hardware s.frame d.consumed d.header.fdl.toNat = .short e) :
    exec .pktdec s = .next ((writeHeader d (s.byteAt .fb 2) (s.startCommand (encode .pktdec))).raise e) :=
  runCommand_error (by rw [pktdecCommand_startCommand hflen hd, hp]; rfl)

theorem exec_pktdec_mismatch (hflen : s.regNat .flen ≤ 65553) (hd : hdrDec Config.hardware s.frame = .ok d)
    (hp : decodePayload Config.hardware s.frame d.consumed d.header.fdl.toNat = .mismatch p rx e) :
    exec .pktdec s = .next ((loadPacket d (s.byteAt .fb 2) p rx .checksumFailed
      (frameLen d.consumed d.header.fdl.toNat) (s.startCommand (encode .pktdec))).raise e) :=
  runCommand_error (by rw [pktdecCommand_startCommand hflen hd, hp]; rfl)

theorem exec_pktdec_valid (hflen : s.regNat .flen ≤ 65553) (hd : hdrDec Config.hardware s.frame = .ok d)
    (hp : decodePayload Config.hardware s.frame d.consumed d.header.fdl.toNat = .valid p rx need) :
    exec .pktdec s = .next (loadPacket d (s.byteAt .fb 2) p rx .checksumValidated need
      (s.startCommand (encode .pktdec))).finish :=
  runCommand_ok (by rw [pktdecCommand_startCommand hflen hd, hp]; rfl)

end

/-! ## PKTDEC refines `pkt_dec` -/

section
variable {cfg : Config} {s p : List Byte} {hl fdl : Nat} {rx : Half} {e : Err}

theorem decodePayload_short_ofs (h : decodePayload cfg s hl fdl = .short e) : e.ofs = frameLen hl fdl := by
  rcases decodePayload_cases cfg s hl fdl with ⟨_, hd⟩ | ⟨_, _, hd⟩ | ⟨_, _, _, hd⟩ | ⟨_, _, _, hd⟩ <;>
    rw [hd] at h <;> cases h
  rfl

theorem decodePayload_mismatch_ofs (h : decodePayload cfg s hl fdl = .mismatch p rx e) : e.ofs = hl + fdl := by
  rcases decodePayload_cases cfg s hl fdl with ⟨_, hd⟩ | ⟨_, _, hd⟩ | ⟨_, _, _, hd⟩ | ⟨_, _, _, hd⟩ <;>
    rw [hd] at h <;> cases h
  rfl

/-- A decoded packet ends where HL and FDL say (45_packet_codec.md R101). -/
theorem pktDec_consumed {d : PacketDecoded} (hc : cfg.legal) (h : pktDec cfg s = .ok d) :
    d.consumed = frameLen d.header.hl.toNat d.header.fdl.toNat := by
  cases hd : hdrDec cfg s with
  | error e =>
    rw [(pktDec_headerError hd).1] at h
    cases h
  | ok hdr =>
    cases hp : decodePayload cfg s hdr.consumed hdr.header.fdl.toNat with
    | short e =>
      rw [(pktDec_short hd hp).1] at h
      cases h
    | mismatch p rx e =>
      rw [(pktDec_mismatch hd hp).1] at h
      cases h
    | valid p rx need =>
      obtain ⟨-, -, hhl⟩ := hdrDec_consumed hc hd
      rw [(pktDec_valid hd hp).1] at h
      cases h
      rw [hhl]
      exact (decodePayload_valid hp).1

end

/-- Settles O44: before the header is decoded by `decoder_raises`, after that as the payload steps answer. -/
theorem pktdecRefinesPktDec : Obligations.PktdecRefinesPktDec := by
  intro s hflen
  cases hd : hdrDec Config.hardware s.frame with
  | error e =>
    obtain ⟨hdec, hphase⟩ := pktDec_headerError hd
    obtain ⟨t, ht, herr, hstart, -⟩ :=
      decoder_raises (.inr rfl) ((decoderError_of_le hflen).trans (hdrDec_error_iff.1 hd))
    rw [State.regNat_phase] at hstart
    rw [hdec, hphase]
    refine ⟨t, ht, BitVec.eq_of_toNat_eq hstart, ?_, nofun⟩
    rintro _ ⟨⟩
    exact herr
  | ok d =>
    obtain ⟨hconsumed, -, -⟩ := hdrDec_consumed hardware_legal hd
    have hfdl := d.header.fdl.isLt
    have hframe : frameLen d.consumed d.header.fdl.toNat ≤ 65553 := frameLen_le (by omega) hfdl
    cases hp : decodePayload Config.hardware s.frame d.consumed d.header.fdl.toNat with
    | short e =>
      obtain ⟨hdec, hphase⟩ := pktDec_short hd hp
      have hofs := decodePayload_short_ofs hp
      rw [hdec, hphase]
      refine ⟨_, exec_pktdec_short hflen hd hp, rfl, ?_, nofun⟩
      rintro _ ⟨⟩
      exact reportsError_raise rfl (decodePayload_short hp).field_lt (by omega)
    | mismatch p rx e =>
      obtain ⟨hdec, hphase⟩ := pktDec_mismatch hd hp
      have hofs := decodePayload_mismatch_ofs hp
      rw [hdec, hphase]
      refine ⟨_, exec_pktdec_mismatch hflen hd hp, rfl, ?_, nofun⟩
      rintro _ ⟨⟩
      exact reportsError_raise rfl (decodePayload_mismatch hp).1.field_lt (by omega)
    | valid p rx need =>
      obtain ⟨hdec, hphase⟩ := pktDec_valid hd hp
      obtain ⟨hneed, hlen⟩ := decodePayload_valid hp
      rw [hdec, hphase]
      refine ⟨_, exec_pktdec_valid hflen hd hp, rfl, nofun, ?_⟩
      rintro _ ⟨⟩
      exact ⟨reportsOk_finish rfl, rfl, rfl, (payload_finish _).trans (payload_loadPacket d _ rx _ _ _ (by omega)),
        (State.regNat_cur _).trans (count_toNat (by omega))⟩

/-- Settles O46: by the lengths of the frame PKTENC writes and of the packet `pkt_dec` gives. -/
theorem frameLengthLaw : Obligations.FrameLengthLaw := by
  refine fun s t => ⟨fun ht hcode => ?_, fun ht hcode => ?_⟩
  · obtain ⟨b, hb, rfl⟩ := exec_pktenc_inv ht hcode
    rw [frameWritten_flen hb, State.regNat_hl, State.regNat_hl, State.regNat_plen, State.regNat_plen, frameWritten_hdr,
      frameWritten_plen, frameLen]
  · rcases Nat.lt_or_ge 65553 (s.regNat .flen) with hgt | hle
    · obtain ⟨u, hu, herr, -⟩ := decoder_raises (.inr rfl) (decoderError_of_gt hgt)
      rw [ht] at hu
      cases hu
      exact absurd hcode (errcode_ne_zero herr)
    · obtain ⟨u, hu, -, herr, hok⟩ := pktdecRefinesPktDec s hle
      rw [ht] at hu
      cases hu
      cases hd : pktDec Config.hardware s.frame with
      | error e => exact absurd hcode (errcode_ne_zero (herr e hd))
      | ok d =>
        obtain ⟨-, hheader, -, -, hcur⟩ := hok d hd
        rw [hcur, pktDec_consumed hardware_legal hd, ← hheader, State.regNat_hl, State.regNat_fdl]
        rfl

end Sys2Proof.Machine
end

section
/-! PROOFS. PKTDEC of a decodable header in FB (45_packet_codec.md R96 to R98), by what the payload steps find after it:
a cut frame, a whole frame whose SFRCS disagrees, and a whole, intact one. -/

namespace Sys2Proof.Machine

section
variable {s : State}

/-! ## What the payload steps find in FB -/

/-- The payload the frame in FB declares. -/
def payloadFound (s : State) : List Byte := s.slice .fb (s.fbNat 3) (s.fbHalf 5)

/-- The SFRCS received with the frame in FB; 0 when there is no payload (45_packet_codec.md R96). -/
def checksumFound (s : State) : Half :=
  if 0 < s.fbHalf 5 then halfOf (s.byteAt .fb s.payloadEnd) (s.byteAt .fb (s.payloadEnd + 1)) else 0

theorem checksumFound_toNat (s : State) :
    (checksumFound s).toNat = if 0 < s.fbHalf 5 then s.fbHalf s.payloadEnd else 0 :=
  toNat_ite_zero Iff.rfl fun _ => halfOf_toNat _ _

theorem payloadFound_length (s : State) : (payloadFound s).length = s.fbHalf 5 := State.slice_length ..

theorem frameNeed_eq (s : State) : s.frameNeed = frameLen (s.fbNat 3) (s.fbHalf 5) := rfl

theorem frameNeed_of_pos (h : 0 < s.fbHalf 5) : s.frameNeed = s.payloadEnd + 2 := by rw [State.frameNeed, if_pos h]

theorem decodePayload_frame_short (h : s.regNat .flen < s.frameNeed) :
    decodePayload Config.hardware s.frame (s.fbNat 3) (s.fbHalf 5) =
      .short ⟨.truncated, if s.regNat .flen < s.payloadEnd then 0x81 else 16, s.frameNeed⟩ := by
  rw [State.regNat_flen] at h ⊢
  rw [frameNeed_eq] at h
  simp only [decodePayload, frame_length, if_pos h]
  rfl

/-- In a whole frame the payload steps find its payload, and at its end its SFRCS. -/
theorem decodePayload_frame_whole (h : s.frameNeed ≤ s.regNat .flen) (h0 : 0 < s.fbHalf 5) :
    decodePayload Config.hardware s.frame (s.fbNat 3) (s.fbHalf 5) =
      if crc16 Config.hardware (payloadFound s) ≠ checksumFound s then
        .mismatch (payloadFound s) (checksumFound s) ⟨.payloadChecksumMismatch, 16, s.payloadEnd⟩
      else .valid (payloadFound s) (checksumFound s) s.frameNeed := by
  rw [State.regNat_flen] at h
  have hend : s.payloadEnd + 2 ≤ s.rng.flen.toNat := by rwa [frameNeed_of_pos h0] at h
  have hp : (s.frame.drop (s.fbNat 3)).take (s.fbHalf 5) = payloadFound s :=
    frame_span s (show s.payloadEnd ≤ _ by omega)
  have hrx : halfOfSeq s.frame (s.fbNat 3 + s.fbHalf 5) = checksumFound s := by
    rw [checksumFound, if_pos h0, halfOfSeq]
    exact congrArg₂ halfOf (frame_byte s (show s.payloadEnd < _ by omega)) (frame_byte s hend)
  rw [frameNeed_eq] at h
  simp only [decodePayload, frame_length, if_neg h.not_gt, if_neg h0.ne', hp, hrx]
  rfl

/-- The payload and the received SFRCS agree: as numbers, or because there is no payload. -/
theorem decodePayload_frame_valid (h : s.frameNeed ≤ s.regNat .flen)
    (hcrc : 0 < s.fbHalf 5 → (crc16 Config.hardware (payloadFound s)).toNat = s.fbHalf s.payloadEnd) :
    decodePayload Config.hardware s.frame (s.fbNat 3) (s.fbHalf 5) =
      .valid (payloadFound s) (checksumFound s) s.frameNeed := by
  by_cases h0 : 0 < s.fbHalf 5
  · have heq : crc16 Config.hardware (payloadFound s) = checksumFound s :=
      BitVec.eq_of_toNat_eq (by rw [hcrc h0, checksumFound_toNat, if_pos h0])
    rw [decodePayload_frame_whole h h0, if_neg (not_not.2 heq)]
  · have hz : s.fbHalf 5 = 0 := by omega
    rw [State.regNat_flen, ← frame_length, frameNeed_eq, hz] at h
    rw [payloadFound, checksumFound, if_neg h0, frameNeed_eq, hz]
    exact decodePayload_empty h

theorem decodePayload_frame_mismatch (h : s.frameNeed ≤ s.regNat .flen) (h0 : 0 < s.fbHalf 5)
    (hcrc : (crc16 Config.hardware (payloadFound s)).toNat ≠ s.fbHalf s.payloadEnd) :
    decodePayload Config.hardware s.frame (s.fbNat 3) (s.fbHalf 5) =
      .mismatch (payloadFound s) (checksumFound s) ⟨.payloadChecksumMismatch, 16, s.payloadEnd⟩ := by
  have hne : crc16 Config.hardware (payloadFound s) ≠ checksumFound s := fun heq => hcrc <| by
    rw [heq, checksumFound_toNat, if_pos h0]
  rw [decodePayload_frame_whole h h0, if_pos hne]

/-! ## What PKTDEC leaves -/

theorem headerFound_fdl (h : s.headerGood) : (headerFound s).header.fdl.toNat = s.fbHalf 5 := by
  obtain ⟨⟨-, -, -, hspan⟩, -, -, hlen⟩ := h
  rw [State.lengthGood] at hlen
  rw [State.regNat_flen] at hspan
  exact frame_half s (by omega)

theorem fbHalf_lt (s : State) (a : Nat) : s.fbHalf a < 65536 := by
  have hlo := (s.byteAt .fb a).isLt
  have hhi := (s.byteAt .fb (a + 1)).isLt
  rw [State.fbHalf, State.fbNat, State.fbNat]
  omega

theorem frameNeed_le (h : s.headerGood) : s.frameNeed ≤ 65553 := by
  have ⟨_, _, _, hlen⟩ := h
  rw [State.lengthGood] at hlen
  exact frameLen_le (by omega) (fbHalf_lt s 5)

/-- What the body of PKTDEC leaves of a state with a decodable header once the payload is read, in phase `ph`. -/
def loadFound (ph : Phase) (s : State) : State :=
  loadPacket (headerFound s) (s.byteAt .fb 2) (payloadFound s) (checksumFound s) ph s.frameNeed
    (s.startCommand (encode .pktdec))

/-- The registers and PB of `t` hold the packet that stands in FB of `s`, and PHASE holds `ph`. -/
structure PacketLoaded (s t : State) (ph : Phase) : Prop where
  header : headerLoaded s t
  phase : t.regNat .phase = ph.num.toNat
  cur : t.regNat .cur = s.frameNeed
  plen : t.regNat .plen = s.fbHalf 5
  sfrcs : t.regNat .sfrcs = if 0 < s.fbHalf 5 then s.fbHalf s.payloadEnd else 0
  payload : ∀ i, i < s.fbHalf 5 → t.byteAt .pb i = s.byteAt .fb (s.fbNat 3 + i)

theorem packetLoaded_loadFound (h : s.headerGood) (ph : Phase) : PacketLoaded s (loadFound ph s) ph where
  header := headerLoaded_writeHeader h
  phase := State.regNat_phase _
  cur := (State.regNat_cur _).trans (count_toNat (frameNeed_le h))
  plen := by
    rw [State.regNat_plen, loadFound, loadPacket_plen, payloadFound_length, BitVec.toNat_ofNat,
      Nat.mod_eq_of_lt (fbHalf_lt s 5)]
  sfrcs := (State.regNat_sfrcs _).trans (checksumFound_toNat s)
  payload i hi := by
    rw [loadFound, byteAt_pb_loadPacket, payloadFound_length, if_pos hi, payloadFound, byteOfSeq_slice _ _ _ _ _ hi]

/-- The completion takes nothing of that back. -/
theorem packetLoaded_complete (h : s.headerGood) (ph : Phase) (o : Option Err) :
    PacketLoaded s ((loadFound ph s).complete o) ph := by
  obtain ⟨header, phase, cur, plen, sfrcs, payload⟩ := packetLoaded_loadFound h ph
  cases o <;> exact ⟨header, phase, cur, plen, sfrcs, payload⟩

/-- What PKTDEC leaves alone once the payload is read, however it ends. -/
theorem loadFound_frame (s : State) (ph : Phase) (o : Option Err) :
    sameOutside .pb 0 (s.fbHalf 5) s ((loadFound ph s).complete o) ∧
      sameRegsExcept s ((loadFound ph s).complete o) (writtenRegs .pktdec ++ reportRegs) ∧
      sameBuffer .fb s ((loadFound ph s).complete o) ∧ sameHost s ((loadFound ph s).complete o) := by
  have hup : Update _ _ fun buf => if buf = .pb then s.fbHalf 5 else 0 :=
    (update_loadPacket (headerFound s) (s.byteAt .fb 2) (payloadFound s) (checksumFound s) ph s.frameNeed
      (payloadFound_length s).le).command (encode .pktdec) o
  exact ⟨hup.sameOutside s .pb, hup.sameRegsExcept s, sameBuffer_of_sameOutside (hup.sameOutside s .fb) rfl,
    hup.host s⟩

end

/-! ## The obligations -/

/-- Settles O41: the payload steps accept a whole, intact frame. -/
theorem pktdecDecodesAFrame : Obligations.PktdecDecodesAFrame := by
  intro s hs hneed hcrc
  have ⟨⟨_, hflen, _⟩, _⟩ := hs
  have hrun : exec .pktdec s = .next ((loadFound .checksumValidated s).complete none) :=
    exec_pktdec_valid hflen (hdrDec_frame hs) (headerFound_fdl hs ▸ decodePayload_frame_valid hneed hcrc)
  obtain ⟨hheader, hphase, hcur, hplen, hsfrcs, hpayload⟩ := packetLoaded_complete hs .checksumValidated none
  obtain ⟨hpb, hregs, hfb, hhost⟩ := loadFound_frame s .checksumValidated none
  exact ⟨_, hrun, reportsOk_finish rfl, hheader, hphase, hcur, hplen, hsfrcs, hpayload, hpb, hregs, hfb, hhost⟩

/-- Settles O43: the payload steps keep what they read of a whole frame whose SFRCS disagrees. -/
theorem pktdecMismatchKeepsWhatWasReceived : Obligations.PktdecMismatchKeepsWhatWasReceived := by
  intro s hs hneed h0 hcrc
  have ⟨⟨_, hflen, _⟩, _⟩ := hs
  have hend : frameLen (headerFound s).consumed (headerFound s).header.fdl.toNat = s.frameNeed := by
    rw [headerFound_fdl hs]
    rfl
  have hrun : exec .pktdec s = .next
      ((loadFound .checksumFailed s).complete (some ⟨.payloadChecksumMismatch, 16, s.payloadEnd⟩)) := by
    rw [loadFound, ← hend]
    exact exec_pktdec_mismatch hflen (hdrDec_frame hs)
      (headerFound_fdl hs ▸ decodePayload_frame_mismatch hneed h0 hcrc)
  have hofs : s.payloadEnd < 2 ^ 32 := by
    have := frameNeed_of_pos h0
    have := frameNeed_le hs
    omega
  obtain ⟨hheader, hphase, hcur, hplen, hsfrcs, hpayload⟩ := packetLoaded_complete hs .checksumFailed (some _)
  obtain ⟨hpb, hregs, hfb, hhost⟩ := loadFound_frame s .checksumFailed (some _)
  rw [if_pos h0] at hsfrcs
  exact ⟨_, hrun, reportsError_raise rfl (by decide : 16 < 256) hofs, hheader, hphase, hcur, hplen, hsfrcs, hpayload,
    hpb, hregs, hfb, hhost⟩

/-- Settles O42: the payload steps write nothing when the frame is cut. -/
theorem pktdecTruncatedKeepsTheHeader : Obligations.PktdecTruncatedKeepsTheHeader := by
  intro s hs hcut
  have ⟨⟨_, hflen, _⟩, _⟩ := hs
  have hneed := frameNeed_le hs
  have hspan := (s.byteAt .fb 3).isLt
  have hrun := exec_pktdec_short hflen (hdrDec_frame hs) (headerFound_fdl hs ▸ decodePayload_frame_short hcut)
  have hup : Update _ _ fun _ => 0 :=
    (update_writeHeader (d := headerFound s) (s.byteAt .fb 2) (List.subset_append_left _ [.phase, .cur])
      (List.subset_append_right _ _)).command (encode .pktdec)
      (some ⟨.truncated, if s.regNat .flen < s.payloadEnd then 0x81 else 16, s.frameNeed⟩)
  refine ⟨_, hrun, reportsError_raise rfl ?_ (hneed.trans_lt (by decide)), headerLoaded_writeHeader hs,
    State.regNat_phase _, (State.regNat_cur _).trans (count_toNat ?_), hup.sameRegsExcept s,
    sameBuffer_of_sameOutside (hup.sameOutside s .pb) rfl, sameBuffer_of_sameOutside (hup.sameOutside s .fb) rfl,
    hup.host s⟩
  · show (if s.regNat .flen < s.payloadEnd then 0x81 else 16) < 256
    split <;> decide
  · show (s.byteAt .fb 3).toNat ≤ 65553
    omega

end Sys2Proof.Machine
end

section
/-! PROOFS. The packet round trip in registers (45_packet_codec.md R100): PKTDEC finds in FB the packet that PKTENC has
just written. And the three BadRange reports that only smaller buffers reach (60_exceptions.md R117). -/

namespace Sys2Proof.Machine

/-! ## The round trip -/

section
variable {s : State} {b : List Byte}

theorem byteAt_pb_frameWritten (b : List Byte) (s : State) (a : Nat) :
    (frameWritten b s).byteAt .pb a = s.byteAt .pb a := by
  rw [frameWritten, State.byteAt_finish, writeFrame, State.byteAt_setFlen, State.byteAt_setHcs, State.byteAt_setFlags,
    State.byteAt_setSfrcs, State.byteAt_setFdl, State.byteAt_store_ne _ (by decide), State.byteAt_startCommand]

/-- The header a decoder finds in the frame PKTENC wrote, with the fields outside the routing block as they stand in
the registers. -/
def headerWritten (b : List Byte) (s : State) : HeaderDecoded where
  header := { s.header.withLength s.payload.length with
    pra := if s.hdr.rte = 1 then s.hdr.pra else 0
    rca := if s.hdr.rte = 1 then s.hdr.rca else 0
    ttl := if s.hdr.rte = 1 then s.hdr.ttl else 0 }
  hcs := byteOfSeq b (b.length - 1)
  consumed := b.length

theorem hdrDec_frameWritten (hb : hdrEnc Config.hardware (s.header.withLength s.payload.length) = .ok b) :
    hdrDec Config.hardware (frameWritten b s).frame = .ok (headerWritten b s) := by
  obtain ⟨-, hle⟩ := exec_pktenc_ok hb
  rw [frameWritten, frame_writeFrame hle, hdrDec_of_hdrEnc hardware_legal hb, visible_eq]
  rfl

theorem decodePayload_frameWritten (hb : hdrEnc Config.hardware (s.header.withLength s.payload.length) = .ok b) :
    decodePayload Config.hardware (frameWritten b s).frame (headerWritten b s).consumed
        (headerWritten b s).header.fdl.toNat =
      .valid s.payload (checksumRegister Config.hardware s.payload) (frameLen b.length s.payload.length) := by
  obtain ⟨-, hle⟩ := exec_pktenc_ok hb
  have hfdl : (headerWritten b s).header.fdl.toNat = s.payload.length :=
    (congrArg BitVec.toNat (ofNat_payload_length s)).trans (payload_length s).symm
  have hp := decodePayload_payloadPart Config.hardware b s.payload []
  rw [List.append_nil] at hp
  rw [frameWritten, frame_writeFrame hle, hfdl]
  exact hp

/-- PKTDEC of the frame PKTENC wrote succeeds, gives back the registers and PB, but for a routing block that the header
does not have, and consumes the frame. -/
theorem exec_pktdec_frameWritten (hb : hdrEnc Config.hardware (s.header.withLength s.payload.length) = .ok b) :
    ∃ u, exec .pktdec (frameWritten b s) = .next u ∧ reportsOk 0x21 u ∧
      u.hdr = { (frameWritten b s).hdr with
        pra := if (frameWritten b s).hdr.rte = 1 then (frameWritten b s).hdr.pra else 0
        rca := if (frameWritten b s).hdr.rte = 1 then (frameWritten b s).hdr.rca else 0
        ttl := if (frameWritten b s).hdr.rte = 1 then (frameWritten b s).hdr.ttl else 0 } ∧
      u.rng.plen = (frameWritten b s).rng.plen ∧ sameBuffer .pb (frameWritten b s) u ∧ u.regNat .phase = 3 ∧
      u.regNat .cur = (frameWritten b s).regNat .flen := by
  obtain ⟨-, hle⟩ := exec_pktenc_ok hb
  obtain ⟨hlen, hhl⟩ := hdrEnc_length hardware_legal hb
  have hflen : (frameWritten b s).regNat .flen = frameLen b.length s.payload.length := writeFrame_flen _ hle
  have hflags : (frameWritten b s).byteAt .fb 2 = byteOfSeq b 2 :=
    startsWith_left (startsWith_writeFrame b s.payload _) 2 (by omega)
  refine ⟨_, exec_pktdec_valid (hflen.trans_le hle) (hdrDec_frameWritten hb) (decodePayload_frameWritten hb),
    reportsOk_finish rfl, ?_, ?_, fun a => ?_, State.regNat_phase _,
    ((State.regNat_cur _).trans (count_toNat hle)).trans hflen.symm⟩
  · rw [hflags, frameWritten_hdr]
    rfl
  · rw [State.finish_rng, loadPacket_plen, frameWritten_plen, ofNat_payload_length]
  · rw [State.byteAt_finish, byteAt_pb_loadPacket, State.byteAt_startCommand, byteAt_pb_frameWritten]
    split
    · exact byteOfSeq_payload (by rwa [State.regNat_plen, ← payload_length])
    · rfl

end

/-- Settles O45: on values by `pktDec_of_pktEnc`; in registers because FB then holds what PKTENC encoded. -/
theorem packetRoundTrip : Obligations.PacketRoundTrip := by
  refine ⟨fun cfg h p f t hc hp hf => ?_, fun s t ht hcode => ?_⟩
  · obtain ⟨b, hb, rfl⟩ := pktEnc_eq_ok_iff.1 hf
    rw [length_append_payloadPart]
    exact pktDec_of_pktEnc hc hp hb t
  · obtain ⟨b, hb, rfl⟩ := exec_pktenc_inv ht hcode
    obtain ⟨u, hu, hok, hhdr, hplen, hpb, hphase, hcur⟩ := exec_pktdec_frameWritten hb
    have hrte := byte_eq_one_iff_word (frameWritten b s).hdr.rte
    rw [← State.reg_rte] at hrte
    refine ⟨u, hu, hok, fun r hr => ?_, fun r hr => ?_, hpb, hphase, hcur⟩
    all_goals simp only [List.mem_cons, List.not_mem_nil, or_false] at hr
    · rcases hr with rfl | rfl | rfl | rfl | rfl | rfl | rfl | rfl | rfl | rfl | rfl | rfl | rfl | rfl | rfl | rfl <;>
        simp [hhdr, hplen]
    · rcases hr with rfl | rfl | rfl
      · rw [State.reg_pra, hhdr, State.reg_pra, setWidth_ite_zero hrte]
      · rw [State.reg_rca, hhdr, State.reg_rca, setWidth_ite_zero hrte]
      · rw [State.reg_ttl, hhdr, State.reg_ttl, setWidth_ite_zero hrte]

/-! ## Smaller buffers -/

section
variable {cfg : Config} {s : State}

theorem pktencCommand_payloadTooLong (h : cfg.pbSize < s.payloadLength) :
    pktencCommand cfg s = (s, some ⟨.badRange, 18, s.payloadLength⟩) := if_pos h

theorem pktencCommand_frameTooLong {b : List Byte} (hp : s.payloadLength ≤ cfg.pbSize)
    (hb : hdrEnc cfg (s.header.withLength s.payloadLength) = .ok b)
    (hf : cfg.fbSize < (b ++ payloadPart cfg s.payload).length) :
    pktencCommand cfg s = (s, some ⟨.badRange, 19, (b ++ payloadPart cfg s.payload).length⟩) := by
  rw [payloadPart, ← List.append_assoc] at hf ⊢
  simp only [pktencCommand, if_neg hp.not_gt, hb, if_pos hf]
  rfl

/-- A payload too long for PB is found when the header is committed (45_packet_codec.md R98). -/
theorem pktdecCommand_payloadTooLong {d : HeaderDecoded} (hf : s.frameLength ≤ cfg.fbSize)
    (hd : hdrDec cfg s.frame = .ok d) (hp : cfg.pbSize < d.header.fdl.toNat) :
    pktdecCommand cfg s =
      (writeHeader d (s.byteAt .fb 2) s, some ⟨.badRange, 18, d.header.fdl.toNat⟩) := by
  have hlen : frameLengthError cfg (s.setPhase .start 0) = none := if_neg hf.not_gt
  simp only [pktdecCommand, hlen, frame_setPhase, hd, if_pos hp]
  rfl

theorem hdrDec_consumed_lt {b : List Byte} {d : HeaderDecoded} (hd : hdrDec cfg b = .ok d) : d.consumed < 256 := by
  obtain ⟨-, rfl⟩ := hdrDec_ok_iff.1 hd
  exact (byteOfSeq b 3).isLt

end

/-- Settles O48: each bound is tested after all that R95 and R97 put before it has passed. -/
theorem smallerBuffersRaiseBadRange : Obligations.SmallerBuffersRaiseBadRange := by
  intro cfg s
  rw [State.regNat_plen, State.regNat_flen]
  refine ⟨pktencCommand_payloadTooLong, fun f hp hf hlong => ?_, fun d hflen hd hp => ?_⟩
  · obtain ⟨b, hb, rfl⟩ := pktEnc_eq_ok_iff.1 hf
    rw [payload_length] at hb
    exact pktencCommand_frameTooLong hp hb hlong
  · have hconsumed := hdrDec_consumed_lt hd
    exact ⟨_, pktdecCommand_payloadTooLong hflen hd hp, rfl, rfl, rfl, rfl, count_toNat (by omega), rfl, rfl, rfl,
      rfl⟩

end Sys2Proof.Machine
end

section
/-! PROOFS. NOP (46_system.md R103): a command whose body is the empty update, so its report is all it writes. -/

namespace Sys2Proof.Machine

/-- Settles O17: the body of NOP writes no register and no byte, so only the report of its completion is new. -/
theorem nopClearsTheReportOnly : Obligations.NopClearsTheReportOnly := by
  intro s
  have hbody : commandBody .nop (s.startCommand (encode .nop)) = (s.startCommand (encode .nop), none) := rfl
  rw [exec_eq_runCommand (by decide)]
  exact ⟨_, runCommand_updates update_id (by decide : Reg.cmd ∉ []) hbody⟩

end Sys2Proof.Machine
end

section
/-! PROOFS. Every command completes (60_exceptions.md R106), so a host that keeps to the interface (20_memory.md R42) is
answered at every step; and with no access pending the block is idle (R128). -/

namespace Sys2Proof.Machine

/-! ## Completion -/

theorem statusAfter_bits (c : Byte) :
    (statusAfter c).getLsbD 0 = false ∧ (statusAfter c).getLsbD 1 = true ∧
      ((statusAfter c).getLsbD 2 = true ↔ c ≠ 0) := by
  rw [statusAfter, ← bne_iff_ne]
  cases c != 0 <;> decide

/-- The completion sets STATUS from the ERRCODE it writes, and that is 0 or the code of an error (30_encoding.md R54). -/
theorem complete_status (s : State) (o : Option Err) :
    (s.complete o).ctl.status = statusAfter (s.complete o).ctl.errcode ∧ (s.complete o).ctl.errcode.toNat ≤ 9 := by
  cases o with
  | none => exact ⟨rfl, Nat.zero_le 9⟩
  | some e => exact ⟨rfl, (errCode_num e.code).2⟩

theorem complete_cmd (s : State) (o : Option Err) : (s.complete o).ctl.cmd = s.ctl.cmd := by cases o <;> rfl

theorem reg_errcode_ne_zero_iff (s : State) : s.reg .errcode ≠ 0 ↔ s.ctl.errcode ≠ 0 := by
  rw [State.reg_errcode]
  exact not_congr ⟨fun h => eq_of_setWidth_eq (by decide) (h.trans rfl), fun h => by rw [h]; rfl⟩

/-- Settles O49: STATUS follows the ERRCODE that the completion writes, and CLR leaves the reset values. -/
theorem everyCommandCompletes : Obligations.EveryCommandCompletes := by
  intro i s
  by_cases hi : i = .clr
  · subst hi
    obtain ⟨hbusy, herr, -, hcode, -⟩ := reportInv_of_reset s.clearRegisters_ctl
    refine ⟨_, exec_clr s, hbusy, herr.trans (reg_errcode_ne_zero_iff _).symm, ?_, fun hne => absurd rfl hne,
      fun _ => ⟨?_, rfl⟩⟩
    · rwa [State.regNat_errcode]
    · rw [State.done, State.clearRegisters_ctl]
      decide
  · rw [exec_eq_runCommand hi, runCommand]
    have hcmd := commandBody_cmd hi (s.startCommand (encode i))
    generalize commandBody i (s.startCommand (encode i)) = r at hcmd ⊢
    obtain ⟨hstatus, hcode⟩ := complete_status r.1 r.2
    obtain ⟨hbusy, hdone, herr⟩ := statusAfter_bits (r.1.complete r.2).ctl.errcode
    rw [← hstatus] at hbusy hdone herr
    refine ⟨_, rfl, hbusy, herr.trans (reg_errcode_ne_zero_iff _).symm, ?_, fun _ => ⟨hdone, ?_⟩, fun h => absurd h hi⟩
    · rwa [State.regNat_errcode]
    · rw [State.reg_cmd, complete_cmd, hcmd, State.startCommand_cmd]

/-! ## Steps that are answered -/

/-- An outcome that is a next state, with the given accesses still to be made. -/
def AnswersWith (pending : List HostAccess) (o : Host.Outcome State Fault Refusal) : Prop :=
  ∃ t, o = .next t ∧ t.pending = pending

theorem exec_answers (i : Instr) (s : State) : AnswersWith s.pending (exec i s) := by
  obtain ⟨t, ht, -⟩ := everyCommandCompletes i s
  obtain ⟨-, ⟨hpending, -⟩, -⟩ := commandsWriteOnlyTheirTable i s t ht
  exact ⟨t, ht, hpending⟩

theorem commandWrite_answers (w : Word) (s : State) : AnswersWith s.pending (commandWrite w s) := by
  cases hw : decode w with
  | ok i => rw [commandWrite_ok hw]; exact exec_answers i s
  | error e =>
    obtain ⟨t, ht, -, -, -, -, hpending, -⟩ := illegalCommand_raises w s
    rw [commandWrite_error hw]
    exact ⟨t, ht, hpending⟩

theorem busWrite_pending (s : State) (w : Word) (x : Target) : (s.busWrite w x).pending = s.pending := by
  cases x with
  | reg r => exact writeReg_pending s r w
  | byte buf a => exact State.store_pending s buf a _
  | reserved => rfl

theorem busTarget_of_wellFormed {size : AccessSize} {a : Nat} (h : accessWellFormed size a = true) :
    ∃ x, busTarget size a = some x :=
  Option.isSome_iff_exists.1 ((busTarget_isSome size a).trans h)

/-- An access of the interface is answered, and the rest of the script stays (20_memory.md R42). -/
theorem hostAccess_answers {a : HostAccess} (ha : a.wellFormed = true) (s : State) :
    AnswersWith s.pending (hostAccess a s) := by
  cases a with
  | reset => exact ⟨_, rfl, rfl⟩
  | read size addr =>
    obtain ⟨x, hx⟩ := busTarget_of_wellFormed ha
    exact ⟨_, hostAccess_read hx, rfl⟩
  | write size addr w =>
    obtain ⟨x, hx⟩ := busTarget_of_wellFormed ha
    by_cases hcmd : x = .reg .cmd
    · subst hcmd
      simp only [hostAccess, hx]
      exact commandWrite_answers w (s.answer none)
    · exact ⟨_, hostAccess_write hx hcmd, busWrite_pending _ w x⟩

theorem step_nil {s : State} (h : s.pending = []) : step s = .next s := by
  simp only [step, hostStep, h]

/-- A step under a well-formed script is answered, and what is left of the script is well formed. -/
theorem step_of_scriptWellFormed {s : State} (hs : s.scriptWellFormed) :
    ∃ t, step s = .next t ∧ t.scriptWellFormed := by
  cases hp : s.pending with
  | nil => exact ⟨s, step_nil hp, hs⟩
  | cons a rest =>
    rw [State.scriptWellFormed, hp, List.forall_mem_cons] at hs
    obtain ⟨ha, hrest⟩ := hs
    obtain ⟨t, ht, hpending⟩ := hostAccess_answers ha (s.withPending rest)
    refine ⟨t, (step_cons hp).trans ht, ?_⟩
    rwa [State.scriptWellFormed, hpending]

theorem run_succ_of_next {M : Host.Core} {s t : M.State} (h : M.step s = .next t) (n : Nat) :
    M.run (n + 1) s = M.run n t := by
  simp only [Host.Core.run, h]

/-- Settles O57: by induction on the number of steps, each of which keeps the script well formed. -/
theorem wellFormedScriptsRunForEver : Obligations.WellFormedScriptsRunForEver := by
  intro s hs n
  induction n generalizing s with
  | zero => exact ⟨s, rfl⟩
  | succ n ih =>
    obtain ⟨t, hstep, ht⟩ := step_of_scriptWellFormed hs
    obtain ⟨u, hu⟩ := ih t ht
    exact ⟨u, (run_succ_of_next (M := core) hstep n).trans hu⟩

/-- Settles O6: an empty script is the idle case of the step. -/
theorem idleStepHoldsState : Obligations.IdleStepHoldsState := fun _ => step_nil

end Sys2Proof.Machine
end

section
/-! PROOFS. Reset: the reset input and CLR leave the same register state and differ in what becomes of PB and FB
(70_reset_and_hazards.md R129, R130); the first command after reset finds 0 in every register (R131). -/

namespace Sys2Proof.Machine

/-! ## The register state after reset -/

/-- A register reads nothing but the four register groups. -/
theorem State.reg_congr {s t : State} (hhdr : t.hdr = s.hdr) (hrng : t.rng = s.rng) (hbf : t.bf = s.bf)
    (hctl : t.ctl = s.ctl) (r : Reg) : t.reg r = s.reg r := by
  cases r <;> simp only [State.reg, hhdr, hrng, hbf, hctl]

theorem State.reg_assertReset (s : State) (r : Reg) : s.assertReset.reg r = State.reset.reg r :=
  State.reg_congr rfl rfl rfl rfl r

theorem State.reg_clearRegisters (s : State) (r : Reg) : s.clearRegisters.reg r = State.reset.reg r :=
  State.reg_congr rfl rfl rfl rfl r

/-- The numbers that the commands of 70_reset_and_hazards.md R131 find in their operands. -/
theorem State.regNat_reset (r : Reg) : State.reset.regNat r = 0 := by
  obtain ⟨hzero, -, -⟩ := resetRegistersAreZero
  rw [State.regNat, hzero]
  rfl

/-- Settles O15: the access of the reset input is answered with the reset registers and empty buffers. -/
theorem resetInputForgetsEverything : Obligations.ResetInputForgetsEverything := by
  intro s rest hp
  exact ⟨(s.withPending rest).assertReset, step_cons hp, State.reg_assertReset _, State.assertReset_pb _,
    State.assertReset_fb _, State.assertReset_pending _⟩

/-- Settles O18: CLR clears the register groups, and the bytes do not depend on them. -/
theorem clrResetsRegistersKeepsBuffers : Obligations.ClrResetsRegistersKeepsBuffers := by
  intro s
  obtain ⟨hzero, -, -⟩ := resetRegistersAreZero
  have hreg := s.reg_clearRegisters
  exact ⟨s.clearRegisters, exec_clr s, hreg, fun r => (hreg r).trans (hzero r), State.byteAt_clearRegisters s .pb,
    State.byteAt_clearRegisters s .fb, s.clearRegisters_pending, s.clearRegisters_reply, s.clearRegisters_epoch⟩

/-! ## The first command after reset -/

theorem tableWord_toNat (w : Word) : tableWord 32 w.toNat = w := by
  rw [tableWord, Nat.mod_eq_of_lt w.isLt, BitVec.ofNat_toNat, BitVec.setWidth_eq]

/-- The command written to CMD straight after reset runs on the reset state. -/
theorem step_reset_command (i : Instr) :
    step (State.reset.withFetchWord 32 (encode i).toNat) = exec i State.reset := by
  have hp : (State.reset.withFetchWord 32 (encode i).toNat).pending = [.write .word cmdAddr (encode i)] := by
    rw [State.withFetchWord, tableWord_toNat]
    rfl
  rw [step_writeCmd hp, commandWrite_ok (decode_encode i)]
  rfl

/-- Every width check passes on zeros; PRV = 0 is the first value that is refused (41_header_codec.md R67). -/
theorem encodeError_reset : encodeError Config.hardware State.reset.header = some ⟨.invalidField, 0, 0⟩ := by
  rw [encodeError_registers]
  simp only [State.regNat_reset]
  rfl

/-- FLEN = 0 holds fewer than the four bytes up to HL (41_header_codec.md R70). -/
theorem decoderError_reset : decoderError State.reset = some ⟨.truncated, 0x80, 4⟩ := by
  have hflen := State.regNat_reset .flen
  rw [decoderError_of_le (by omega), decodeError_registers, if_pos (by omega)]

/-- Settles O16: on the reset state HDRENC stops at its first check that fails, and HDRDEC at its first step. -/
theorem commandsStraightAfterReset : Obligations.CommandsStraightAfterReset := by
  constructor
  · obtain ⟨t, ht, hreport, -⟩ := encoder_raises (.inl rfl) encodeError_reset
    exact ⟨t, (step_reset_command .hdrenc).trans ht, hreport⟩
  · obtain ⟨t, ht, hreport, -⟩ := decoder_raises (.inl rfl) decoderError_reset
    exact ⟨t, (step_reset_command .hdrdec).trans ht, hreport⟩

end Sys2Proof.Machine
end

section
/-! PROOFS. PID is the sender's counter (70_reset_and_hazards.md R136): its successor wraps to 0, and no command but the
decoders and CLR writes it; a decoder past Start has loaded it from the frame. -/

namespace Sys2Proof.Machine

theorem pidNext_toNat (p : Half) : (pidNext p).toNat = (p.toNat + 1) % 65536 := by
  rw [pidNext, BitVec.toNat_ofNat]
  exact Nat.mod_mod _ _

/-- The rows of the table of 10_state.md R32 that list PID. -/
theorem pid_written_iff (i : Instr) :
    .pid ∈ writtenRegs i ++ reportRegs ↔ i = .hdrdec ∨ i = .pktdec ∨ i = .clr := by
  cases i <;> decide

/-! ## A decoder past Start -/

section
variable {s : State} {c : Instr}

theorem payloadOutcome_pid (hl fdl : Nat) (r : PayloadResult) (u : State) :
    (payloadOutcome hl fdl r u).1.hdr.pid = u.hdr.pid := by cases r <;> rfl

theorem complete_pid (s : State) (o : Option Err) : (s.complete o).hdr.pid = s.hdr.pid := by cases o <;> rfl

/-- A decoder that meets no error before its header is decoded has a decodable header in FB. -/
theorem headerGood_of_decoderError_none (h : decoderError s = none) : s.headerGood := by
  have hflen : s.regNat .flen ≤ 65553 := by
    by_contra hgt
    rw [decoderError_of_gt (by omega)] at h
    cases h
  rw [decoderError_of_le hflen] at h
  rw [State.regNat_flen] at hflen
  exact (decodeError_frame hflen).1 h

theorem headerFound_pid (h : s.headerGood) : (headerFound s).header.pid.toNat = s.fbHalf 7 := by
  obtain ⟨⟨-, -, -, hspan⟩, -, -, hlen⟩ := h
  rw [State.lengthGood] at hlen
  rw [State.regNat_flen] at hspan
  exact frame_half s (by omega)

theorem fbHalf_startCommand (s : State) (w : Word) (a : Nat) : (s.startCommand w).fbHalf a = s.fbHalf a := by
  simp only [State.fbHalf, State.fbNat, State.byteAt_startCommand]

/-- Both decoders load the PID of the header, and the payload steps of PKTDEC keep it (45_packet_codec.md R97). -/
theorem commandBody_pid (hc : c = .hdrdec ∨ c = .pktdec) (h : s.headerGood) :
    (commandBody c s).1.hdr.pid = (headerFound s).header.pid := by
  rcases hc with rfl | rfl
  · rw [commandBody, hdrdecCommand_headerGood h]
    rfl
  · have ⟨⟨_, hflen, _⟩, _⟩ := h
    rw [commandBody, pktdecCommand_decoded (frameLengthError_of_le hflen) (hdrDec_frame h), payloadOutcome_pid]
    rfl

/-- The PID a decoder leaves when a header is decodable is the number at frame offsets 7 and 8. -/
theorem exec_decoder_pid {t : State} (hc : c = .hdrdec ∨ c = .pktdec) (h : s.headerGood)
    (ht : exec c s = .next t) : t.regNat .pid = s.fbHalf 7 := by
  have hclr : c ≠ .clr := by rcases hc with rfl | rfl <;> decide
  rw [exec_eq_runCommand hclr, runCommand] at ht
  cases ht
  have hstart := (headerGood_startCommand s (encode c)).2 h
  rw [State.regNat_pid, complete_pid, commandBody_pid hc hstart, headerFound_pid hstart, fbHalf_startCommand]

end

/-! ## The obligation -/

/-- Settles O53: a command whose row does not list PID keeps it, and a decoder that stops before its header is decoded
stays in Start. -/
theorem pidIsTheSendersCounter : Obligations.PidIsTheSendersCounter := by
  refine ⟨pidNext_toNat, rfl, fun i s t hhdr hpkt hclr ht => ?_, fun i s t hi ht hphase => ?_⟩
  · obtain ⟨hregs, -⟩ := commandsWriteOnlyTheirTable i s t ht
    exact hregs .pid ((pid_written_iff i).not.2 (by simp [hhdr, hpkt, hclr]))
  · cases he : decoderError s with
    | none => exact exec_decoder_pid hi (headerGood_of_decoderError_none he) ht
    | some e =>
      obtain ⟨u, hu, -, hstart, -⟩ := decoder_raises hi he
      rw [ht] at hu
      cases hu
      exact absurd (BitVec.eq_of_toNat_eq (y := 0#32) hstart) hphase

end Sys2Proof.Machine
end
